-- ==== Sys2Proof/Word.lean ====
section
/-! DEFINITION. The plain word types and the bank of eight like things (one per channel). -/

namespace Sys2Proof

/-- A byte: every register-map field, duty and debouncer field is one (20 R52). -/
abbrev Byte := BitVec 8

/-- A channel number, 0 to 7 (10 R20: exactly 8 channel records). -/
abbrev Ch := Fin 8

/-- Eight like things, one per channel (10 R20, 10 R35). -/
structure Bank (α : Type) where
  c0 : α
  c1 : α
  c2 : α
  c3 : α
  c4 : α
  c5 : α
  c6 : α
  c7 : α
  deriving DecidableEq, Repr, Inhabited

/-- The member of channel `k`. -/
def Bank.get {α : Type} (b : Bank α) (k : Ch) : α :=
  match k with
  | 0 => b.c0
  | 1 => b.c1
  | 2 => b.c2
  | 3 => b.c3
  | 4 => b.c4
  | 5 => b.c5
  | 6 => b.c6
  | 7 => b.c7

/-- The bank with the member of channel `k` replaced. -/
def Bank.set {α : Type} (b : Bank α) (k : Ch) (x : α) : Bank α :=
  match k with
  | 0 => { b with c0 := x }
  | 1 => { b with c1 := x }
  | 2 => { b with c2 := x }
  | 3 => { b with c3 := x }
  | 4 => { b with c4 := x }
  | 5 => { b with c5 := x }
  | 6 => { b with c6 := x }
  | 7 => { b with c7 := x }

/-- The bank whose member of channel `k` is `f k`, channels 0 to 7 in ascending order. -/
def Bank.ofFn {α : Type} (f : Ch → α) : Bank α :=
  ⟨f 0, f 1, f 2, f 3, f 4, f 5, f 6, f 7⟩

end Sys2Proof
end

