-- ==== Sys2Proof/Config.lean ====
section
/-! DEFINITION. What an implementation fixes (00 R8, R9), the free value that gives it at reset, and the
free choice of the next agent (10 R36). -/

namespace Sys2Proof

/-- A transition-table entry (30 R73): three 5-bit duty levels, so that 00 R9 (b) holds by type. -/
structure Entry where
  down : BitVec 5
  up : BitVec 5
  red : BitVec 5
  deriving DecidableEq, Repr, Inhabited

/-- A transition table of 1 to 32 entries (00 R9 (a)): the index of its last entry, and the entries. -/
abbrev Table := (last : Fin 32) × Vector Entry (last.val + 1)

/-- `ADVANCE_GRANULARITY` (00 R8, 43 R197). -/
inductive Granularity where
  | perWrite
  | perChannel
  deriving DecidableEq, Repr, Inhabited

/-- The parameters of the block (00 R8). The tables are the table ROM of 20 R50 (b). A configuration that
breaks 00 R9 cannot be built: the refusal of 60 R212 (b) (log entries 3 and 23). -/
structure Config where
  /-- `FADE_TABLE`, exactly 32 entries (00 R9 (c)). -/
  fade : Vector Entry 32
  /-- `RED_TABLE`, the searchlight involving-red table. -/
  red : Table
  /-- `GY_TABLE`, the searchlight through-red table. -/
  gy : Table
  /-- `TICKS_PER_MS` (D20), at least 1 (log entry 3). -/
  ticksPerMs : ℕ+
  /-- `FLASH_TOGGLE_TICKS` (D19), at least 1 (log entry 3). -/
  flashToggleTicks : ℕ+
  /-- `SENSE_ANODE_LEVEL` (D5): the level of the sense line that means common-anode. -/
  senseAnodeLevel : Bool
  /-- `INIT_SENSE_BYTE` (D22). -/
  initSenseByte : Byte
  /-- `REGMAP_INIT` (D35). -/
  regmapInit : Vector Byte 24
  /-- The bus-busy level before the host first changes it (D35). -/
  initBusBusy : Bool
  /-- The raw sense byte before the host first changes it (D35). -/
  initSenseRaw : Byte
  /-- `ADVANCE_GRANULARITY` (D25). -/
  granularity : Granularity
  deriving DecidableEq, Repr, Inhabited

/-- The platform's own parameters: OPEN in the spec, so nothing is known of them (log entry 1). -/
opaque Config.platform : Config

/-- A step that an agent may take (43 R190). `main poll` is the main loop's next unit; `poll` says whether a
pass that has done its SERVICE goes on to a POLL (43 R192, R198). -/
inductive AgentStep where
  | tick
  | main (poll : Bool)
  | hostWrite (a : Fin 24) (v : Byte)
  | hostBusy (l : Bool)
  | hostSense (v : Byte)
  deriving DecidableEq, Repr, Inhabited

/-- Which agent steps next when nothing is placed in the schedule: a parameter of the step relation
(10 R36, D25), here the `n`-th free choice (log entry 6). -/
opaque Config.freeAgent (n : Nat) : AgentStep

end Sys2Proof
end

