-- ==== Sys2Proof/Syntax.lean ====
section
/-! DEFINITION. The syntax: aspects, colours, and one constructor of `Instr` per row of
spec/opcode_table.json. -/

namespace Sys2Proof

/-- The aspects, in the order of their codes 0 to 7 (30 R70). -/
inductive Aspect where
  | off
  | green
  | flashGreen
  | yellow
  | flashYellow
  | red
  | flashRed
  | lunar
  deriving DecidableEq, Repr, Inhabited

/-- The lamp colours (00 R12). -/
inductive Color where
  | red
  | yellow
  | green
  deriving DecidableEq, Repr, Inhabited

/-- The ways the spec reads a word (30 §1 to §4). The POL rows and the TOPO rows of the opcode table are two
spellings of one option byte (log entry 11). -/
inductive Format where
  | aspectByte
  | optionPol
  | optionTopo
  | tableEntry
  | opWord
  deriving DecidableEq, Repr, Inhabited

/-- Why a word is refused (30 R77, R74, R79). -/
inductive DecodeError where
  /-- `op` is 0xE or 0xF (30 R77 (a)). -/
  | reservedOpcode
  /-- `w[19:16]` is not 0 (30 R77 (b)). -/
  | reservedBits
  /-- A channel of 8 or more (30 R77 (c)). -/
  | channelOutOfRange
  /-- A register-map address above 23 (30 R77 (c)). -/
  | addressOutOfRange
  /-- A nonzero `idx` where the row says 0 (30 R77 (c)). -/
  | indexNotZero
  /-- Nonzero bits of `arg` where the row says 0 (30 R77 (c)). -/
  | argumentNotZero
  /-- Bit 15 of a packed table entry is 1 (30 R74). -/
  | entryBit15
  /-- The word's length is that of no format: not 8, 16 or 24 bits (30 R74, R79; log entry 11). -/
  | wordLength
  deriving DecidableEq, Repr, Inhabited

/-- One constructor per row of spec/opcode_table.json, in the table's order. -/
inductive Instr where
  -- aspect bytes (30 R70, R71); the five INVALID rows carry the code
  | aspectOff
  | aspectGreen
  | aspectFlashGreen
  | aspectYellow
  | aspectFlashYellow
  | aspectRed
  | aspectFlashRed
  | aspectLunar
  | aspectInvalid08 (code : Byte)
  | aspectInvalid10 (code : Byte)
  | aspectInvalid20 (code : Byte)
  | aspectInvalid40 (code : Byte)
  | aspectInvalid80 (code : Byte)
  -- option bytes by their POL field (30 R72); `rest` is bits [5:0]
  | optionPolCommonAnode (rest : BitVec 6)
  | optionPolCommonCathode (rest : BitVec 6)
  | optionPolFromSense (rest : BitVec 6)
  | optionPolInvalid (rest : BitVec 6)
  -- option bytes by their TOPO field (30 R72); `hi` is bits [7:3]
  | optionTopoThreeLamp (hi : BitVec 5)
  | optionTopoSearchlight (hi : BitVec 5)
  | optionTopoInvalid2 (hi : BitVec 5) (topo : BitVec 3)
  | optionTopoInvalid4 (hi : BitVec 5) (topo : BitVec 3)
  -- packed table entry (30 R74)
  | tableEntry (down up red : BitVec 5)
  -- operation words (30 R76)
  | reset
  | setTarget (k : Ch) (code : Byte)
  | advance (k : Ch) (flasher : Bool)
  | drive (k : Ch) (p : BitVec 5)
  | tick
  | service
  | poll
  | debInit (v : Byte)
  | debSample (raw : Byte)
  | debState
  | hostWrite (a : Byte) (v : Byte)
  | hostWriteUnread (a : Byte) (v : Byte)
  | hostBusy (l : Bool)
  | hostSense (v : Byte)
  | setOptions (k : Ch) (b : Byte)
  deriving DecidableEq, Repr, Inhabited

end Sys2Proof
end

