-- ==== Sys2Proof/WellFormed.lean ====
section
/-! DEFINITION. The operand ranges that the rows of spec/opcode_table.json give and the types of `Instr` do
not carry. -/

namespace Sys2Proof

/-- The operands of `i` lie in the range of its row (30 R70, R72, R76). -/
def WellFormed (i : Instr) : Bool :=
  match i with
  | .aspectInvalid08 code => decide (0x08 ≤ code.toNat ∧ code.toNat < 0x10)
  | .aspectInvalid10 code => decide (0x10 ≤ code.toNat ∧ code.toNat < 0x20)
  | .aspectInvalid20 code => decide (0x20 ≤ code.toNat ∧ code.toNat < 0x40)
  | .aspectInvalid40 code => decide (0x40 ≤ code.toNat ∧ code.toNat < 0x80)
  | .aspectInvalid80 code => decide (0x80 ≤ code.toNat)
  | .optionTopoInvalid2 _ topo => decide (2 ≤ topo.toNat ∧ topo.toNat < 4)
  | .optionTopoInvalid4 _ topo => decide (4 ≤ topo.toNat)
  | .hostWrite a _ => decide (a.toNat < 16)
  | .hostWriteUnread a _ => decide (16 ≤ a.toNat ∧ a.toNat < 24)
  | .aspectOff | .aspectGreen | .aspectFlashGreen | .aspectYellow | .aspectFlashYellow | .aspectRed
  | .aspectFlashRed | .aspectLunar => true
  | .optionPolCommonAnode _ | .optionPolCommonCathode _ | .optionPolFromSense _ | .optionPolInvalid _ => true
  | .optionTopoThreeLamp _ | .optionTopoSearchlight _ | .tableEntry _ _ _ => true
  | .reset | .setTarget _ _ | .advance _ _ | .drive _ _ | .tick | .service | .poll => true
  | .debInit _ | .debSample _ | .debState | .hostBusy _ | .hostSense _ | .setOptions _ _ => true

end Sys2Proof
end

