-- ==== Sys2Proof/Decode.lean ====
section
/-! DEFINITION. The decoder, total on any word and refusing by name (30 R71, R72, R74, R75 to R79), and after
it the encoder. -/

namespace Sys2Proof

/-- The instruction of an aspect byte: every byte has one (30 R71). -/
def decodeAspectByte (b : Byte) : Instr :=
  match b.toNat with
  | 0 => .aspectOff
  | 1 => .aspectGreen
  | 2 => .aspectFlashGreen
  | 3 => .aspectYellow
  | 4 => .aspectFlashYellow
  | 5 => .aspectRed
  | 6 => .aspectFlashRed
  | 7 => .aspectLunar
  | n =>
    if n < 0x10 then .aspectInvalid08 b
    else if n < 0x20 then .aspectInvalid10 b
    else if n < 0x40 then .aspectInvalid20 b
    else if n < 0x80 then .aspectInvalid40 b
    else .aspectInvalid80 b

/-- The instruction of an option byte, by its POL field `b[7:6]` (30 R72). -/
def decodeOptionPol (b : Byte) : Instr :=
  match (b.extractLsb' 6 2).toNat with
  | 0 => .optionPolFromSense (b.extractLsb' 0 6)
  | 1 => .optionPolCommonCathode (b.extractLsb' 0 6)
  | 2 => .optionPolCommonAnode (b.extractLsb' 0 6)
  | _ => .optionPolInvalid (b.extractLsb' 0 6)

/-- The instruction of an option byte, by its TOPO field `b[2:0]` (30 R72). -/
def decodeOptionTopo (b : Byte) : Instr :=
  match (b.extractLsb' 0 3).toNat with
  | 0 => .optionTopoThreeLamp (b.extractLsb' 3 5)
  | 1 => .optionTopoSearchlight (b.extractLsb' 3 5)
  | n =>
    if n < 4 then .optionTopoInvalid2 (b.extractLsb' 3 5) (b.extractLsb' 0 3)
    else .optionTopoInvalid4 (b.extractLsb' 3 5) (b.extractLsb' 0 3)

/-- The instruction of a packed table entry; bit 15 must be 0 (30 R74). -/
def decodeEntryWord (w : BitVec 16) : Except DecodeError Instr :=
  match w.getLsbD 15 with
  | true => .error .entryBit15
  | false => .ok (.tableEntry (w.extractLsb' 0 5) (w.extractLsb' 5 5) (w.extractLsb' 10 5))

/-- An operation without operands: `idx` and `arg` must be 0 (30 R76). -/
def decodeBare (i : Instr) (idx arg : Byte) : Except DecodeError Instr :=
  if idx ≠ 0 then .error .indexNotZero
  else if arg ≠ 0 then .error .argumentNotZero
  else .ok i

/-- An operation whose `arg` is an operand as it stands and whose `idx` must be 0 (30 R76). -/
def decodeArg (i : Instr) (idx : Byte) : Except DecodeError Instr :=
  if idx ≠ 0 then .error .indexNotZero else .ok i

/-- An operation on a channel: `idx[7:3]` must be 0 (30 R76), `ch = w[10:8]` (30 R78). -/
def decodeChannel (idx : Byte) (f : Ch → Except DecodeError Instr) : Except DecodeError Instr :=
  if h : idx.toNat < 8 then f ⟨idx.toNat, h⟩ else .error .channelOutOfRange

/-- HOST_WRITE: the address is 0 to 23, in the two ranges of its two rows (30 R76). -/
def decodeHostWrite (idx arg : Byte) : Except DecodeError Instr :=
  if idx.toNat < 16 then .ok (.hostWrite idx arg)
  else if idx.toNat < 24 then .ok (.hostWriteUnread idx arg)
  else .error .addressOutOfRange

/-- The rows of 30 R76, by `op`. -/
def decodeRow (op : Nat) (idx arg : Byte) : Except DecodeError Instr :=
  match op with
  | 0x0 => decodeBare .reset idx arg
  | 0x1 => decodeChannel idx fun k => .ok (.setTarget k arg)
  | 0x2 => decodeChannel idx fun k =>
      if arg.extractLsb' 1 7 ≠ 0 then .error .argumentNotZero else .ok (.advance k (arg.getLsbD 0))
  | 0x3 => decodeChannel idx fun k =>
      if arg.extractLsb' 5 3 ≠ 0 then .error .argumentNotZero else .ok (.drive k (arg.extractLsb' 0 5))
  | 0x4 => decodeBare .tick idx arg
  | 0x5 => decodeBare .service idx arg
  | 0x6 => decodeBare .poll idx arg
  | 0x7 => decodeArg (.debInit arg) idx
  | 0x8 => decodeArg (.debSample arg) idx
  | 0x9 => decodeBare .debState idx arg
  | 0xA => decodeHostWrite idx arg
  | 0xB =>
      if idx ≠ 0 then .error .indexNotZero
      else if arg.extractLsb' 1 7 ≠ 0 then .error .argumentNotZero
      else .ok (.hostBusy (arg.getLsbD 0))
  | 0xC => decodeArg (.hostSense arg) idx
  | 0xD => decodeChannel idx fun k => .ok (.setOptions k arg)
  | _ => .error .reservedOpcode

/-- The instruction of an operation word: `op = w[23:20]`, `w[19:16]` reserved, `idx = w[15:8]`,
`arg = w[7:0]` (30 R75). -/
def decodeOpWord (w : BitVec 24) : Except DecodeError Instr :=
  if w.extractLsb' 16 4 ≠ 0 then .error .reservedBits
  else decodeRow (w.extractLsb' 20 4).toNat (w.extractLsb' 8 8) (w.extractLsb' 0 8)

/-- The instruction of a word read in a format; the bits above the format's width are not part of it (log
entry 11). -/
def decode (f : Format) (w : Nat) : Except DecodeError Instr :=
  match f with
  | .aspectByte => .ok (decodeAspectByte (BitVec.ofNat 8 w))
  | .optionPol => .ok (decodeOptionPol (BitVec.ofNat 8 w))
  | .optionTopo => .ok (decodeOptionTopo (BitVec.ofNat 8 w))
  | .tableEntry => decodeEntryWord (BitVec.ofNat 16 w)
  | .opWord => decodeOpWord (BitVec.ofNat 24 w)

/-- The format that a word of the opcode table with `nbits` bits is read in when nothing else tells: an 8-bit
word alone is read as an aspect byte, and a length of no format has none (30 R79; log entry 11). -/
def formatOfWidth (nbits : Nat) : Option Format :=
  match nbits with
  | 8 => some .aspectByte
  | 16 => some .tableEntry
  | 24 => some .opWord
  | _ => none

/-- The instruction read from a word of `nbits` bits, none where the decoder refuses it. -/
def decodeTableWord (nbits w : Nat) : Option Instr :=
  match formatOfWidth nbits with
  | some f => (decode f w).toOption
  | none => none

/-! ### The encoder -/

/-- The format an instruction is written in. -/
def formatOf (i : Instr) : Format :=
  match i with
  | .aspectOff | .aspectGreen | .aspectFlashGreen | .aspectYellow | .aspectFlashYellow | .aspectRed
  | .aspectFlashRed | .aspectLunar => .aspectByte
  | .aspectInvalid08 _ | .aspectInvalid10 _ | .aspectInvalid20 _ | .aspectInvalid40 _
  | .aspectInvalid80 _ => .aspectByte
  | .optionPolCommonAnode _ | .optionPolCommonCathode _ | .optionPolFromSense _
  | .optionPolInvalid _ => .optionPol
  | .optionTopoThreeLamp _ | .optionTopoSearchlight _ | .optionTopoInvalid2 _ _
  | .optionTopoInvalid4 _ _ => .optionTopo
  | .tableEntry _ _ _ => .tableEntry
  | .reset | .setTarget _ _ | .advance _ _ | .drive _ _ | .tick | .service | .poll => .opWord
  | .debInit _ | .debSample _ | .debState | .hostWrite _ _ | .hostWriteUnread _ _ => .opWord
  | .hostBusy _ | .hostSense _ | .setOptions _ _ => .opWord

/-- The width of a format in bits (30 R79, R74). -/
def Format.width (f : Format) : Nat :=
  match f with
  | .aspectByte | .optionPol | .optionTopo => 8
  | .tableEntry => 16
  | .opWord => 24

/-- An operation word put together from its fields (30 R75). -/
def opWord (op idx arg : Nat) : Nat := op * 0x100000 + idx * 0x100 + arg

/-- The word of an instruction, from the tables of 30 R70, R72, R74 and R76. -/
def encode (i : Instr) : Nat :=
  match i with
  | .aspectOff => 0x00
  | .aspectGreen => 0x01
  | .aspectFlashGreen => 0x02
  | .aspectYellow => 0x03
  | .aspectFlashYellow => 0x04
  | .aspectRed => 0x05
  | .aspectFlashRed => 0x06
  | .aspectLunar => 0x07
  | .aspectInvalid08 code => code.toNat
  | .aspectInvalid10 code => code.toNat
  | .aspectInvalid20 code => code.toNat
  | .aspectInvalid40 code => code.toNat
  | .aspectInvalid80 code => code.toNat
  | .optionPolCommonAnode rest => 0x80 + rest.toNat
  | .optionPolCommonCathode rest => 0x40 + rest.toNat
  | .optionPolFromSense rest => rest.toNat
  | .optionPolInvalid rest => 0xC0 + rest.toNat
  | .optionTopoThreeLamp hi => hi.toNat * 8
  | .optionTopoSearchlight hi => hi.toNat * 8 + 1
  | .optionTopoInvalid2 hi topo => hi.toNat * 8 + topo.toNat
  | .optionTopoInvalid4 hi topo => hi.toNat * 8 + topo.toNat
  | .tableEntry down up red => red.toNat * 1024 + up.toNat * 32 + down.toNat
  | .reset => opWord 0x0 0 0
  | .setTarget k code => opWord 0x1 k.val code.toNat
  | .advance k flasher => opWord 0x2 k.val flasher.toNat
  | .drive k p => opWord 0x3 k.val p.toNat
  | .tick => opWord 0x4 0 0
  | .service => opWord 0x5 0 0
  | .poll => opWord 0x6 0 0
  | .debInit v => opWord 0x7 0 v.toNat
  | .debSample raw => opWord 0x8 0 raw.toNat
  | .debState => opWord 0x9 0 0
  | .hostWrite a v => opWord 0xA a.toNat v.toNat
  | .hostWriteUnread a v => opWord 0xA a.toNat v.toNat
  | .hostBusy l => opWord 0xB 0 l.toNat
  | .hostSense v => opWord 0xC 0 v.toNat
  | .setOptions k b => opWord 0xD k.val b.toNat

end Sys2Proof
end

