-- ==== Sys2Proof/Machine/State.lean ====
section
/-! DEFINITION. The state of the machine as plain data, why a step can stop, and the state after reset. -/

namespace Sys2Proof.Machine

/-- A channel record (10 R21). -/
structure Channel where
  startAspect : Aspect
  endAspect : Aspect
  nextAspect : Aspect
  /-- Index into the active transition table; 8 bits (D33). -/
  phase : Byte
  redDuty : Byte
  yellowDuty : Byte
  greenDuty : Byte
  optSearchlight : Bool
  optInvert : Bool
  deriving DecidableEq, Repr, Inhabited

/-- The three output lines of a channel (10 R35): `none` is the spec's "unset", the value before the first
DRIVE (70 R230, D26). -/
structure Lines where
  red : Option Bool
  yellow : Option Bool
  green : Option Bool
  deriving DecidableEq, Repr, Inhabited

/-- One single-byte write of an ADVANCE to its channel record (41 R148). -/
inductive ChanWrite where
  | phase (v : Byte)
  | startAspect (a : Aspect)
  | endAspect (a : Aspect)
  | redDuty (v : Byte)
  | yellowDuty (v : Byte)
  | greenDuty (v : Byte)
  deriving DecidableEq, Repr, Inhabited

/-- The three walks (41 R130). -/
inductive Route where
  | gy
  | red
  | fade
  deriving DecidableEq, Repr, Inhabited

/-- Where an ADVANCE stands between two of its byte writes (41 R148, 43 R197): what it does next, with the local values
that it has read before (the effective target, the selected table, the entry, the steady aspect). What it still has to
read of its record it reads when it goes on. -/
inductive AdvancePoint where
  /-- Step 2: `end_aspect <- t`. -/
  | beginEnd (t : Aspect)
  /-- Step 3: the choice of a walk (41 R130). -/
  | dispatch
  /-- The test of the skip loop of 41 R136, in a fade that departs from Off. -/
  | skip
  /-- `yellow_duty <- 0` of a walk on entry `e`. -/
  | zeroYellow (w : Route) (e : Entry)
  /-- `green_duty <- 0`. -/
  | zeroGreen (w : Route) (e : Entry)
  /-- The departing colour's duty, if there is one (for the through-red walk: log entry 27). -/
  | departure (w : Route) (e : Entry)
  /-- The arriving colour's duty, if there is one (for the through-red walk: log entry 27). -/
  | arrival (w : Route) (e : Entry)
  /-- `red_duty <- e.red` of the through-red walk. -/
  | redField (e : Entry)
  /-- `phase <- phase + 1`. -/
  | phase (w : Route)
  /-- The test for exhaustion (41 R131 (e)). -/
  | exhausted (w : Route)
  /-- `phase <- 0` of `finish`. -/
  | finishPhase
  /-- Step 4: the test for steady state. -/
  | settle
  /-- `yellow_duty` of `steady_duties(a)`. -/
  | settleYellow (a : Aspect)
  /-- `green_duty` of `steady_duties(a)`, the last write. -/
  | settleGreen (a : Aspect)
  deriving DecidableEq, Repr, Inhabited

/-- Where the main-loop agent stands between two of its atomic units (43 R197): the unit it does next, with
what the operation in progress has read. -/
inductive MainLoop where
  /-- Start of a pass: S1, read the wrap flag (43 R193). -/
  | serviceRead
  /-- S2, clear the wrap flag. -/
  | serviceClear
  /-- Begin the ADVANCE of channel `k` (43 R194). -/
  | advance (k : Ch)
  /-- Inside the ADVANCE of channel `k`, at a point between two of its byte writes (`per_write`, 41 R148). -/
  | writing (k : Ch) (point : AdvancePoint)
  /-- The pass has done its SERVICE: go on to a POLL, P1, or to the next pass, S1 (43 R192). -/
  | serviceDone
  /-- P2, test the bus-busy level (43 R195). -/
  | pollBusy
  /-- Read register-map byte `k`. -/
  | pollAspect (k : Ch)
  /-- Read register-map byte `8 + k`; `a` is the aspect byte already read. -/
  | pollOption (k : Ch) (a : Byte)
  /-- SET_TARGET of channel `k`. -/
  | pollTarget (k : Ch) (a o : Byte)
  /-- SET_OPTIONS of channel `k`. -/
  | pollSetOptions (k : Ch) (o : Byte)
  deriving DecidableEq, Repr, Inhabited

/-- What is placed from outside to happen next (log entry 5): an agent's step, or a word to be run alone
(43 R197) in one of the formats of 30. A command byte and a table entry belong to a channel. -/
inductive Item where
  | agent (a : AgentStep)
  | opWord (w : BitVec 24)
  | aspectByte (k : Ch) (b : Byte)
  | optionPol (k : Ch) (b : Byte)
  | optionTopo (k : Ch) (b : Byte)
  | tableEntry (k : Ch) (w : BitVec 16)
  /-- A word whose length is that of no format: it spells nothing (30 R79; DESIGN CHOICE: log entry 11). -/
  | noFormat
  deriving DecidableEq, Repr, Inhabited

/-- Why the machine stops with a fault. The block itself has none (60 R210); both are at the model's boundary. -/
inductive Fault where
  /-- HOST_WRITE of an offset outside 0..23, which does not exist (20 R50). Raised by `execHostWrite` and
  `execHostWriteUnread`, only for an ill-formed instruction, which no word decodes to (30 R77). Safe: the model
  stops (log entry 21). -/
  | noSuchRegister
  /-- An output line is read before any DRIVE wrote it (60 R212 (c), D26). Raised by `readLine`, by which an
  observer reads a line; no step raises it. Safe: nothing is said of the level. -/
  | unsetLine
  deriving DecidableEq, Repr, Inhabited

/-- Why the machine has no step for a word. -/
inductive Refusal where
  /-- The instruction has no meaning in the model. Raised by no arm of `exec`: every row has its meaning. Safe. -/
  | notModelled (mnemonic : String)
  /-- The word spells no instruction (30 R77, R74, R79; 60 R212 (a)). Raised by `step`. Safe: the model takes no step
  for it. -/
  | malformedWord (e : DecodeError)
  deriving DecidableEq, Repr, Inhabited

/-- The whole machine (10_state.md). Fields that are the model's own say so. -/
structure State where
  /-- The parameters and the table ROM (10 R33, R36): no operation writes them (log entry 1). -/
  cfg : Config
  /-- The 8 channel records (10 R20). -/
  chans : Bank Channel
  /-- `g.update_flag`, the wrap flag (10 R25). -/
  updateFlag : Bool
  /-- `g.pwm_phase` (10 R26). -/
  pwmPhase : BitVec 5
  /-- `g.flasher` (10 R27). -/
  flasher : Bool
  /-- `g.flash_count` (10 R28; log entry 4). -/
  flashCount : Nat
  /-- `g.ms_acc` (10 R29; log entry 4). -/
  msAcc : Nat
  /-- `g.ms_count` (10 R29). -/
  msCount : BitVec 32
  /-- `regmap` (10 R30): the bytes that differ from `REGMAP_INIT`, by rising offset (log entry 8). -/
  regmap : List Host.Cell
  /-- `g.bus_busy` (10 R31). -/
  busBusy : Bool
  /-- `g.sense_raw` (10 R32). -/
  senseRaw : Byte
  /-- `g.deb_state` (10 R34). -/
  debState : Byte
  /-- `g.clock_A` (10 R34). -/
  clockA : Byte
  /-- `g.clock_B` (10 R34). -/
  clockB : Byte
  /-- `out[k][c]` (10 R35). -/
  out : Bank Lines
  /-- Where the main-loop agent stands (43 R197). -/
  main : MainLoop
  /-- The model's own: the channel that a command byte or a table entry run alone belongs to (log entry 10). -/
  cmdCh : Ch
  /-- The model's own: the value the last DEB_SAMPLE or DEB_STATE returned (43 R204; log entry 9). -/
  result : Byte
  /-- The model's own: what is placed to happen next (log entry 5). -/
  sched : List Item
  /-- The model's own: how many free choices of an agent were taken (log entry 6). -/
  choice : Nat
  deriving DecidableEq, Repr, Inhabited

/-- A channel record after reset (70 R230): zeroed, Off, three-lamp, cathode. -/
def Channel.atReset : Channel where
  startAspect := .off
  endAspect := .off
  nextAspect := .off
  phase := 0
  redDuty := 0
  yellowDuty := 0
  greenDuty := 0
  optSearchlight := false
  optInvert := true

/-- Lines that nothing has driven (70 R230, D26). -/
def Lines.unset : Lines := ⟨none, none, none⟩

/-- The state after power-up under the parameters `cfg` (70 R230). -/
def State.resetWith (cfg : Config) : State where
  cfg := cfg
  chans := Bank.ofFn fun _ => Channel.atReset
  updateFlag := false
  pwmPhase := 0
  flasher := false
  flashCount := 0
  msAcc := 0
  msCount := 0
  regmap := []
  busBusy := cfg.initBusBusy
  senseRaw := cfg.initSenseRaw
  debState := cfg.initSenseByte
  clockA := 0
  clockB := 0
  out := Bank.ofFn fun _ => Lines.unset
  main := .serviceRead
  cmdCh := 0
  result := 0
  sched := []
  choice := 0

/-- The state after reset: the platform's parameters, with the spec's default `ADVANCE_GRANULARITY`,
`per_write` (00 R8; log entry 2). -/
def State.reset : State :=
  State.resetWith { Config.platform with granularity := .perWrite }

end Sys2Proof.Machine
end

