-- ==== Sys2Proof/Machine/Operands.lean ====
section
/-! DEFINITION. The operand forms: aspect and option decoding (30 R71, R72), the aspect maps of 00 R12, the
transition tables (00 R9, 20 R53), routing (41 R132) and the steady duties (41 R142). -/

namespace Sys2Proof.Machine

/-! ### Aspects -/

/-- `decode_aspect(b)`: codes 0 to 7 in the order of 30 R70, any other value Off (30 R71). -/
def decodeAspect (b : Byte) : Aspect :=
  match b.toNat with
  | 1 => .green
  | 2 => .flashGreen
  | 3 => .yellow
  | 4 => .flashYellow
  | 5 => .red
  | 6 => .flashRed
  | 7 => .lunar
  | _ => .off

/-- `base(a)`: a flashing aspect's colour aspect, else the aspect itself (00 R12). -/
def baseAspect (a : Aspect) : Aspect :=
  match a with
  | .flashGreen => .green
  | .flashYellow => .yellow
  | .flashRed => .red
  | .off => .off
  | .green => .green
  | .yellow => .yellow
  | .red => .red
  | .lunar => .lunar

/-- The aspect is one of the three flashing variants (30 R70). -/
def isFlashing (a : Aspect) : Bool :=
  match a with
  | .flashGreen | .flashYellow | .flashRed => true
  | .off | .green | .yellow | .red | .lunar => false

/-- `color(a)`: the lamp of an aspect; Off and Lunar have none (00 R12, D7, D32). -/
def colorOf (a : Aspect) : Option Color :=
  match a with
  | .green | .flashGreen => some .green
  | .yellow | .flashYellow => some .yellow
  | .red | .flashRed => some .red
  | .off | .lunar => none

/-- `effective(a, f)`: ADVANCE's step 1 (41 R128). -/
def effective (a : Aspect) (flasher : Bool) : Aspect :=
  match isFlashing a, flasher with
  | true, true => baseAspect a
  | true, false => .off
  | false, _ => a

/-! ### Options -/

/-- The option byte asks for common-anode, `s` being the debounced sense bit (30 R72): `10` yes, `01` no, `00`
when the sense bit is `SENSE_ANODE_LEVEL` (D5), `11` no. -/
def optionAnode (senseAnodeLevel : Bool) (b : Byte) (s : Bool) : Bool :=
  match (b.extractLsb' 6 2).toNat with
  | 2 => true
  | 1 => false
  | 0 => s == senseAnodeLevel
  | _ => false

/-- The option byte asks for searchlight: `b[2:0]` is `001` (30 R72, C2). -/
def optionSearchlight (b : Byte) : Bool :=
  b.extractLsb' 0 3 == 1

/-! ### Tables -/

/-- `len(T)` (00 R11). -/
def tableLen (t : Table) : Nat := t.1.val + 1

/-- `T[i]`, none at or past the end (41 R138). -/
def tableGet (t : Table) (i : Nat) : Option Entry := t.2[i]?

/-- `FADE_TABLE` as a table of 32 entries. -/
def fadeTable (cfg : Config) : Table := ⟨31, cfg.fade⟩

/-- An entry from three bytes; a field above 31 is ill-formed (30 R73, 00 R9 (b)). -/
def acceptEntry (e : Byte × Byte × Byte) : Option Entry :=
  if e.1.toNat ≤ 31 ∧ e.2.1.toNat ≤ 31 ∧ e.2.2.toNat ≤ 31 then
    some ⟨e.1.setWidth 5, e.2.1.setWidth 5, e.2.2.setWidth 5⟩
  else none

/-- The entries of a list of byte records, none if one is ill-formed. -/
def acceptEntries (rows : List (Byte × Byte × Byte)) : Option (List Entry) :=
  match rows with
  | [] => some []
  | e :: rest =>
    match acceptEntry e, acceptEntries rest with
    | some x, some xs => some (x :: xs)
    | _, _ => none

/-- A transition table from typed records, refused if ill-formed: 1 to 32 entries, every field 0..31
(00 R9 (a) and (b), D44). -/
def acceptTable (rows : List (Byte × Byte × Byte)) : Option Table :=
  match acceptEntries rows with
  | some (x :: xs) =>
    if h : xs.length < 32 then some ⟨⟨xs.length, h⟩, ⟨(x :: xs).toArray, by simp⟩⟩ else none
  | _ => none

/-- A fade table from typed records: exactly 32 entries (00 R9 (c), D44). -/
def acceptFade (rows : List (Byte × Byte × Byte)) : Option (Vector Entry 32) :=
  match acceptEntries rows with
  | some xs => if h : xs.length = 32 then some ⟨xs.toArray, by simpa using h⟩ else none
  | none => none

/-! ### Routing and steady duties -/

/-- `route(sl, s, e)` (41 R132). -/
def route (searchlight : Bool) (s e : Aspect) : Route :=
  if searchlight ∧ (s = .green ∧ e = .yellow ∨ s = .yellow ∧ e = .green) then .gy
  else if searchlight ∧ s ≠ .off ∧ e ≠ .off ∧ (s = .red ∨ e = .red) then .red
  else .fade

/-- `steady_duties(a)` for one colour: 31 for the aspect's own colour, else 0 (41 R142). -/
def steadyDuty (a : Aspect) (c : Color) : Byte :=
  if colorOf a = some c then 31 else 0

end Sys2Proof.Machine
end

