-- ==== Sys2Proof/Machine/Ops.lean ====
section
/-! DEFINITION. The named operations over the channel records, the register map, the output lines and the
debouncer. The block takes no exception (60 R210, R216, R217), so there is no entry to or return from one. -/

namespace Sys2Proof.Machine

/-! ### The register map (10 R30, 20 R50, R57) -/

/-- What an offset that the host has not written reads as: its byte of `REGMAP_INIT` (D35, log entry 8). -/
def regDefault (cfg : Config) (a : Nat) : Byte :=
  if h : a < 24 then cfg.regmapInit[a] else 0

/-- The byte of offset `a` in a list of cells, `dflt` where none is listed. -/
def Memory.read (dflt : Byte) (m : List Host.Cell) (a : Nat) : Byte :=
  match m with
  | [] => dflt
  | (b, v) :: rest => if b = a then v else Memory.read dflt rest a

/-- The list with the byte of offset `a` set to `v`; writing what an unlisted offset reads as removes the
entry. -/
def Memory.write (dflt : Byte) (m : List Host.Cell) (a : Nat) (v : Byte) : List Host.Cell :=
  match m with
  | [] => if v = dflt then [] else [(a, v)]
  | (b, u) :: rest =>
    if b < a then (b, u) :: Memory.write dflt rest a v
    else if b = a then (if v = dflt then rest else (a, v) :: rest)
    else (if v = dflt then (b, u) :: rest else (a, v) :: (b, u) :: rest)

/-- The canonical form from offset `lo` up: offsets strictly rising and below 24, no entry equal to what an
unlisted offset reads as. -/
def Memory.wfFrom (cfg : Config) (lo : Nat) (m : List Host.Cell) : Bool :=
  match m with
  | [] => true
  | (b, v) :: rest =>
    decide (lo ≤ b ∧ b < 24 ∧ v ≠ regDefault cfg b) && Memory.wfFrom cfg (b + 1) rest

/-- The register map is in its canonical form. -/
def Memory.wf (cfg : Config) (m : List Host.Cell) : Bool := Memory.wfFrom cfg 0 m

/-- `MemRead(a, 1)` (00 R11): a read has no side effect (20 R56). -/
def State.readReg (s : State) (a : Fin 24) : Byte :=
  Memory.read (regDefault s.cfg a.val) s.regmap a.val

/-- `MemWrite(a, 1, v)`, the host's alone (43 R199). -/
def State.writeReg (s : State) (a : Fin 24) (v : Byte) : State :=
  { s with regmap := Memory.write (regDefault s.cfg a.val) s.regmap a.val v }

/-- The offset of channel `k`'s aspect byte: `k` (20 R57, D2). -/
def aspectOffset (k : Ch) : Fin 24 := ⟨k.val, by omega⟩

/-- The offset of channel `k`'s option byte: `8 + k` (20 R57, D2). -/
def optionOffset (k : Ch) : Fin 24 := ⟨8 + k.val, by omega⟩

/-! ### Channel records -/

/-- `ch[k]`. -/
def State.chan (s : State) (k : Ch) : Channel := s.chans.get k

/-- `ch[k] <- c`. -/
def State.setChan (s : State) (k : Ch) (c : Channel) : State := { s with chans := s.chans.set k c }

/-- `duty(c)` (00 R12). -/
def Channel.duty (r : Channel) (c : Color) : Byte :=
  match c with
  | .red => r.redDuty
  | .yellow => r.yellowDuty
  | .green => r.greenDuty

/-- `duty(c) <- v`. -/
def Channel.setDuty (r : Channel) (c : Color) (v : Byte) : Channel :=
  match c with
  | .red => { r with redDuty := v }
  | .yellow => { r with yellowDuty := v }
  | .green => { r with greenDuty := v }

/-- The duty of a colour that may be absent; an absent colour receives nothing (41 R134, R135; in the
through-red walk of 41 R133 no colour is absent). -/
def Channel.setDuty? (r : Channel) (c : Option Color) (v : Byte) : Channel :=
  match c with
  | some c => r.setDuty c v
  | none => r

/-- One single-byte write of an ADVANCE (41 R148). -/
def Channel.write (r : Channel) (w : ChanWrite) : Channel :=
  match w with
  | .phase v => { r with phase := v }
  | .startAspect a => { r with startAspect := a }
  | .endAspect a => { r with endAspect := a }
  | .redDuty v => { r with redDuty := v }
  | .yellowDuty v => { r with yellowDuty := v }
  | .greenDuty v => { r with greenDuty := v }

/-- Byte writes in their order. -/
def Channel.writeAll (r : Channel) (ws : List ChanWrite) : Channel := ws.foldl Channel.write r

/-! ### SET_TARGET and SET_OPTIONS (41 R122, R124) -/

/-- `SENSE_BIT` (D6). -/
def senseLane : Nat := 0

/-- The debounced sense bit, `g.deb_state[SENSE_BIT]`. -/
def State.senseBit (s : State) : Bool := s.debState.getLsbD senseLane

/-- The record with the requested aspect set (41 R122): purely a write of `next_aspect`. -/
def Channel.setTarget (r : Channel) (a : Aspect) : Channel := { r with nextAspect := a }

/-- The record with both options decoded from an option byte, `s` being the debounced sense bit (41 R124). -/
def Channel.setOptions (senseAnodeLevel : Bool) (r : Channel) (b : Byte) (s : Bool) : Channel :=
  { r with optSearchlight := optionSearchlight b, optInvert := !optionAnode senseAnodeLevel b s }

/-- SET_TARGET of channel `k` (41 R122). -/
def State.setTarget (s : State) (k : Ch) (a : Aspect) : State := s.setChan k ((s.chan k).setTarget a)

/-- SET_OPTIONS of channel `k`: the sense bit is read now (41 R124, D23). -/
def State.setOptions (s : State) (k : Ch) (b : Byte) : State :=
  s.setChan k ((s.chan k).setOptions s.cfg.senseAnodeLevel b s.senseBit)

/-! ### Output lines (10 R35) -/

/-- The level of a line: `(duty > p) != invert`, unsigned (42 R170, R172, D45). -/
def lineLevel (duty : Byte) (p : BitVec 5) (invert : Bool) : Bool :=
  (decide (p.toNat < duty.toNat)) != invert

/-- The three lines of a channel driven at phase `p` (42 R170). -/
def Channel.lines (r : Channel) (p : BitVec 5) : Lines where
  red := some (lineLevel r.redDuty p r.optInvert)
  yellow := some (lineLevel r.yellowDuty p r.optInvert)
  green := some (lineLevel r.greenDuty p r.optInvert)

/-- DRIVE(k, p) (42 R170). -/
def State.drive (s : State) (k : Ch) (p : BitVec 5) : State :=
  { s with out := s.out.set k ((s.chan k).lines p) }

/-- DRIVE of channels 0 to 7 with the same `p`, ascending (42 R173, R174). -/
def State.driveAll (s : State) (p : BitVec 5) : State :=
  { s with out := Bank.ofFn fun k => (s.chan k).lines p }

/-- A line of a channel's three. -/
def Lines.line (l : Lines) (c : Color) : Option Bool :=
  match c with
  | .red => l.red
  | .yellow => l.yellow
  | .green => l.green

/-- An observer's read of line `out[k][c]`: it faults while the line is unset (60 R212 (c), D26). No step reads
a line. -/
def readLine (s : State) (k : Ch) (c : Color) : Except Fault Bool :=
  match (s.out.get k).line c with
  | some b => .ok b
  | none => .error .unsetLine

/-! ### The debouncer (40 R102) -/

/-- One lane after a sample: its debounced bit, the two bits of its count (`c = 2*B + A`) and whether it flipped. -/
structure Lane where
  state : Bool
  countA : Bool
  countB : Bool
  changed : Bool
  deriving DecidableEq, Repr, Inhabited

/-- The count of a lane as a number. -/
def laneCount (a b : Bool) : Nat := 2 * b.toNat + a.toNat

/-- The per-bit rule of 40 R102 with `DEBOUNCE_SAMPLES` = 2. A count that could not be reached stays within its
two bits, at most 3 (log entry 14). -/
def laneSample (raw state a b : Bool) : Lane :=
  if raw == state then ⟨state, false, false, false⟩
  else if laneCount a b + 1 = 2 then ⟨!state, false, false, true⟩
  else
    let c := min (laneCount a b + 1) 3
    ⟨state, c % 2 == 1, c / 2 == 1, false⟩

/-- Lane `i` of a sample of `raw`. -/
def State.lane (s : State) (raw : Byte) (i : Fin 8) : Lane :=
  laneSample (raw.getLsbD i.val) (s.debState.getLsbD i.val) (s.clockA.getLsbD i.val) (s.clockB.getLsbD i.val)

/-- DEB_SAMPLE's effect on the debouncer, all 8 lanes in parallel (40 R102, R104). -/
def State.debounce (s : State) (raw : Byte) : State :=
  { s with
    debState := BitVec.ofFnLE fun i => (s.lane raw i).state
    clockA := BitVec.ofFnLE fun i => (s.lane raw i).countA
    clockB := BitVec.ofFnLE fun i => (s.lane raw i).countB }

/-- The value DEB_SAMPLE returns: the bits that flipped (40 R102). -/
def State.debChanged (s : State) (raw : Byte) : Byte :=
  BitVec.ofFnLE fun i => (s.lane raw i).changed

end Sys2Proof.Machine
end

