-- ==== Sys2Proof/Machine/Flags.lean ====
section
/-! DEFINITION. The flags and counters that TICK keeps (42 R173, 60 R219). -/

namespace Sys2Proof.Machine

/-- The phase counter rises by 1 mod 32; the wrap from 31 to 0 sets the wrap flag (42 R175). -/
def State.bumpPhase (s : State) : State :=
  { s with
    pwmPhase := s.pwmPhase + 1
    updateFlag := s.updateFlag || (s.pwmPhase + 1 == 0) }

/-- The millisecond counter rises by 1 mod 2^32 every `TICKS_PER_MS` ticks (42 R177). -/
def State.bumpMillis (s : State) : State :=
  if s.msAcc + 1 = s.cfg.ticksPerMs then { s with msAcc := 0, msCount := s.msCount + 1 }
  else { s with msAcc := s.msAcc + 1 }

/-- The flasher toggles every `FLASH_TOGGLE_TICKS` ticks (42 R176). -/
def State.bumpFlasher (s : State) : State :=
  if s.flashCount + 1 = s.cfg.flashToggleTicks then { s with flashCount := 0, flasher := !s.flasher }
  else { s with flashCount := s.flashCount + 1 }

end Sys2Proof.Machine
end

