-- ==== Sys2Proof/Machine/SignalHead.lean ====
section
/-! DEFINITION. The signal-head state machine and the transition-table decoder (41_signal_head.md):
SET_TARGET, SET_OPTIONS, ADVANCE; and ADVANCE as its sequence of single-byte writes (41 R148). -/

namespace Sys2Proof.Machine

/-! ### ADVANCE of one channel record -/

/-- A table field as a duty byte, zero-extended (00 R11). -/
def level (v : BitVec 5) : Byte := v.setWidth 8

/-- `finish(c)`: the transition ends (41 R127). -/
def Channel.finish (r : Channel) : Channel := { r with startAspect := r.endAspect, phase := 0 }

/-- Steps (d) and (e) of 41 R131: the phase rises by 1 and exhaustion of a table of `len` entries ends the
transition. -/
def Channel.stepPhase (len : Nat) (r : Channel) : Channel :=
  if len ≤ (r.phase + 1).toNat then { r with phase := r.phase + 1 }.finish
  else { r with phase := r.phase + 1 }

/-- The through-red duties: departure from `down`, arrival from `up`, red from `red` (41 R133). Its route gives both
endpoints a colour (`Channel.route_gy_colored`), so `setDuty?` leaves nothing out here. -/
def Channel.throughRed (e : Entry) (r : Channel) : Channel :=
  ((r.setDuty? (colorOf r.startAspect) (level e.down)).setDuty? (colorOf r.endAspect) (level e.up)).setDuty
    .red (level e.red)

/-- All three duties zeroed (41 R134). -/
def Channel.zeroDuties (r : Channel) : Channel := { r with redDuty := 0, yellowDuty := 0, greenDuty := 0 }

/-- The involving-red and fade duties: zero all three, then departure from `down`, arrival from `up`
(41 R134, R135, D11). -/
def Channel.crossDuties (e : Entry) (r : Channel) : Channel :=
  (r.zeroDuties.setDuty? (colorOf r.startAspect) (level e.down)).setDuty? (colorOf r.endAspect) (level e.up)

/-- What entry `e` of a table of `len` entries does in a walk: 41 R133 (gy), R134 (red), R135 with the early
end of R137 (fade). -/
def Channel.takeEntry (w : Route) (len : Nat) (e : Entry) (r : Channel) : Channel :=
  match w with
  | .gy => (r.throughRed e).stepPhase len
  | .red => (r.crossDuties e).stepPhase len
  | .fade =>
    if r.endAspect = .off ∧ e.down = 0 then r.finish else (r.crossDuties e).stepPhase len

/-- One step of a walk over `t`: the guard of 41 R138, then the entry at `phase`. -/
def Channel.walkTable (w : Route) (t : Table) (r : Channel) : Channel :=
  match tableGet t r.phase.toNat with
  | none => r.finish
  | some e => r.takeEntry w (tableLen t) e

/-- The skip loop of 41 R136 from phase `p`, bounded by `fuel` rounds. -/
def skipZeroUp (t : Table) (fuel : Nat) (p : Byte) : Byte :=
  match fuel with
  | 0 => p
  | n + 1 =>
    match tableGet t p.toNat with
    | some e => if e.up = 0 then skipZeroUp t n (p + 1) else p
    | none => p

/-- Departing from Off, zero-up entries are skipped (41 R136). -/
def Channel.skipLeading (t : Table) (r : Channel) : Channel :=
  if r.startAspect = .off then { r with phase := skipZeroUp t (tableLen t) r.phase } else r

/-- `walk_gy(c)` (41 R133). -/
def Channel.walkGy (cfg : Config) (r : Channel) : Channel := r.walkTable .gy cfg.gy

/-- `walk_red(c)` (41 R134). -/
def Channel.walkRed (cfg : Config) (r : Channel) : Channel := r.walkTable .red cfg.red

/-- `walk_fade(c)` (41 R135). -/
def Channel.walkFade (cfg : Config) (r : Channel) : Channel :=
  (r.skipLeading (fadeTable cfg)).walkTable .fade (fadeTable cfg)

/-- The walk of the record's transition (41 R132); the topology is read afresh (41 R139). -/
def Channel.route (r : Channel) : Route :=
  Machine.route r.optSearchlight r.startAspect r.endAspect

/-- Step 2: begin a transition to the effective target `t` (41 R129). -/
def Channel.begin (t : Aspect) (r : Channel) : Channel :=
  if r.startAspect = r.endAspect ∧ t ≠ r.endAspect then { r with phase := 0, endAspect := t } else r

/-- Step 3: one step of one walk while a transition is in progress (41 R130). -/
def Channel.walk (cfg : Config) (r : Channel) : Channel :=
  if r.startAspect = r.endAspect then r
  else
    match r.route with
    | .gy => r.walkGy cfg
    | .red => r.walkRed cfg
    | .fade => r.walkFade cfg

/-- Step 4: at steady state the duties are forced from the steady aspect (41 R141, R142). -/
def Channel.settle (r : Channel) : Channel :=
  if r.startAspect = r.endAspect then
    { r with
      redDuty := steadyDuty r.endAspect .red
      yellowDuty := steadyDuty r.endAspect .yellow
      greenDuty := steadyDuty r.endAspect .green }
  else r

/-- ADVANCE of a record: steps 1 to 4 in order (41 R125, D9). -/
def Channel.advance (cfg : Config) (flasher : Bool) (r : Channel) : Channel :=
  ((r.begin (effective r.nextAspect flasher)).walk cfg).settle

/-- ADVANCE(k, f) (41 R125). -/
def State.advance (s : State) (k : Ch) (flasher : Bool) : State :=
  s.setChan k ((s.chan k).advance s.cfg flasher)

/-! ### A table entry run alone (log entry 12) -/

/-- The table a walk reads (41 R133 to R135). -/
def routeTable (cfg : Config) (w : Route) : Table :=
  match w with
  | .gy => cfg.gy
  | .red => cfg.red
  | .fade => fadeTable cfg

/-- What a walk does with entry `e`, given to it from outside: nothing at steady state (41 R130), the end of the
transition past the table's end (R138), one round of the skip loop (R136), or the entry's own step. -/
def Channel.runEntry (cfg : Config) (e : Entry) (r : Channel) : Channel :=
  if r.startAspect = r.endAspect then r
  else if tableLen (routeTable cfg r.route) ≤ r.phase.toNat then r.finish
  else if r.route = .fade ∧ r.startAspect = .off ∧ e.up = 0 then
    r.stepPhase (tableLen (routeTable cfg r.route))
  else r.takeEntry r.route (tableLen (routeTable cfg r.route)) e

/-! ### ADVANCE as atomic units: each byte write with the reads before it (41 R148, 43 R197) -/

/-- One atomic unit of an ADVANCE. -/
inductive AdvanceUnit where
  /-- A byte write; the ADVANCE then stands at `next`. -/
  | write (w : ChanWrite) (next : AdvancePoint)
  /-- The last byte write of step 4, after which nothing is left to read. -/
  | last (w : ChanWrite)
  /-- The reads after the last byte write found nothing more to write (log entry 13). -/
  | done
  deriving DecidableEq, Repr, Inhabited

/-- The write of a colour's duty. -/
def dutyWrite (c : Color) (v : Byte) : ChanWrite :=
  match c with
  | .red => .redDuty v
  | .yellow => .yellowDuty v
  | .green => .greenDuty v

/-- Step 4: at steady state the red duty first (41 R141). -/
def Channel.settleUnit (r : Channel) : AdvanceUnit :=
  if r.startAspect = r.endAspect then
    .write (.redDuty (steadyDuty r.endAspect .red)) (.settleYellow r.endAspect)
  else .done

/-- `finish`: `start_aspect` first (41 R127). -/
def Channel.finishUnit (r : Channel) : AdvanceUnit := .write (.startAspect r.endAspect) .finishPhase

/-- The test for exhaustion of the table that the walk `w` selected (41 R131 (e)). -/
def Channel.exhaustedUnit (cfg : Config) (w : Route) (r : Channel) : AdvanceUnit :=
  if tableLen (routeTable cfg w) ≤ r.phase.toNat then r.finishUnit else r.settleUnit

/-- The rise of the phase (41 R131 (d)). -/
def Channel.phaseUnit (w : Route) (r : Channel) : AdvanceUnit := .write (.phase (r.phase + 1)) (.exhausted w)

/-- What follows the arriving colour's duty: `red_duty` in the through-red walk, else the phase (41 R133 to R135). -/
def Channel.afterArrivalUnit (w : Route) (e : Entry) (r : Channel) : AdvanceUnit :=
  match w with
  | .gy => .write (.redDuty (level e.red)) (.phase .gy)
  | .red => r.phaseUnit .red
  | .fade => r.phaseUnit .fade

/-- Where the ADVANCE stands once the arriving colour's duty is written. -/
def afterArrival (w : Route) (e : Entry) : AdvancePoint :=
  match w with
  | .gy => .redField e
  | .red => .phase .red
  | .fade => .phase .fade

/-- The arriving colour's duty, if it has a colour. DESIGN CHOICE (unsafe): 41 R133 writes `duty(color(end_aspect))`
without a test, and a stand-alone ADVANCE or table entry placed inside an interrupted through-red walk can leave
`end_aspect` without a colour, where the spec gives that write no meaning; the model then leaves the write out and goes
on with what follows it (log entry 27). In the other two walks the test is the rule's own (41 R134, R135). -/
def Channel.arrivalUnit (w : Route) (e : Entry) (r : Channel) : AdvanceUnit :=
  match colorOf r.endAspect with
  | some c => .write (dutyWrite c (level e.up)) (afterArrival w e)
  | none => r.afterArrivalUnit w e

/-- The departing colour's duty, if it has a colour. In the through-red walk `start_aspect` is read in the unit that
chose the walk, so it lacks one only in states that no run reaches; the write is left out there too (DESIGN CHOICE,
unsafe: log entry 27). -/
def Channel.departureUnit (w : Route) (e : Entry) (r : Channel) : AdvanceUnit :=
  match colorOf r.startAspect with
  | some c => .write (dutyWrite c (level e.down)) (.arrival w e)
  | none => r.arrivalUnit w e

/-- The guard of 41 R138, the reading of the entry, the early end of 41 R137, and the walk's first write. -/
def Channel.entryUnit (cfg : Config) (w : Route) (r : Channel) : AdvanceUnit :=
  match tableGet (routeTable cfg w) r.phase.toNat with
  | none => r.finishUnit
  | some e =>
    match w with
    | .gy => r.departureUnit .gy e
    | .red => .write (.redDuty 0) (.zeroYellow .red e)
    | .fade =>
      if r.endAspect = .off ∧ e.down = 0 then r.finishUnit else .write (.redDuty 0) (.zeroYellow .fade e)

/-- The skip loop's test and its round (41 R136). -/
def Channel.skipUnit (cfg : Config) (r : Channel) : AdvanceUnit :=
  match tableGet (fadeTable cfg) r.phase.toNat with
  | none => r.entryUnit cfg .fade
  | some e => if e.up = 0 then .write (.phase (r.phase + 1)) .skip else r.entryUnit cfg .fade

/-- Step 3: the walk is chosen (41 R130, R132, R135). -/
def Channel.dispatchUnit (cfg : Config) (r : Channel) : AdvanceUnit :=
  if r.startAspect = r.endAspect then r.settleUnit
  else
    match r.route with
    | .gy => r.entryUnit cfg .gy
    | .red => r.entryUnit cfg .red
    | .fade => if r.startAspect = .off then r.skipUnit cfg else r.entryUnit cfg .fade

/-- The first unit: steps 1 and 2 (41 R128, R129), with the flasher bit read now (43 R194). -/
def Channel.beginUnit (cfg : Config) (flasher : Bool) (r : Channel) : AdvanceUnit :=
  if r.startAspect = r.endAspect ∧ effective r.nextAspect flasher ≠ r.endAspect then
    .write (.phase 0) (.beginEnd (effective r.nextAspect flasher))
  else r.dispatchUnit cfg

/-- The unit that an ADVANCE does next from a point, on its record as it is now. -/
def Channel.unitAt (cfg : Config) (p : AdvancePoint) (r : Channel) : AdvanceUnit :=
  match p with
  | .beginEnd t => .write (.endAspect t) .dispatch
  | .dispatch => r.dispatchUnit cfg
  | .skip => r.skipUnit cfg
  | .zeroYellow w e => .write (.yellowDuty 0) (.zeroGreen w e)
  | .zeroGreen w e => .write (.greenDuty 0) (.departure w e)
  | .departure w e => r.departureUnit w e
  | .arrival w e => r.arrivalUnit w e
  | .redField e => .write (.redDuty (level e.red)) (.phase .gy)
  | .phase w => r.phaseUnit w
  | .exhausted w => r.exhaustedUnit cfg w
  | .finishPhase => .write (.phase 0) .settle
  | .settle => r.settleUnit
  | .settleYellow a => .write (.yellowDuty (steadyDuty a .yellow)) (.settleGreen a)
  | .settleGreen a => .last (.greenDuty (steadyDuty a .green))

/-- The byte writes from unit `u` on when nothing else writes the record, `fuel` units at most. -/
def Channel.unitWrites (cfg : Config) (fuel : Nat) (u : AdvanceUnit) (r : Channel) : List ChanWrite :=
  match fuel with
  | 0 => []
  | n + 1 =>
    match u with
    | .done => []
    | .last w => [w]
    | .write w p => w :: Channel.unitWrites cfg n ((r.write w).unitAt cfg p) (r.write w)

/-! ### ADVANCE as the list of its byte writes when nothing interrupts it, in the order of 41 R148 -/

/-- The write of the duty of a colour that may be absent. -/
def dutyWrite? (c : Option Color) (v : Byte) : List ChanWrite :=
  match c with
  | some c => [dutyWrite c v]
  | none => []

/-- (3) `finish`: `start_aspect`, then `phase`. -/
def Channel.finishWrites (r : Channel) : List ChanWrite := [.startAspect r.endAspect, .phase 0]

/-- (2) and (3): the rise of `phase`, and `finish` at exhaustion. -/
def Channel.stepWrites (len : Nat) (r : Channel) : List ChanWrite :=
  .phase (r.phase + 1) :: if len ≤ (r.phase + 1).toNat then r.finishWrites else []

/-- (2) for the through-red walk: departure, arrival, red. -/
def Channel.throughRedWrites (e : Entry) (r : Channel) : List ChanWrite :=
  dutyWrite? (colorOf r.startAspect) (level e.down) ++ dutyWrite? (colorOf r.endAspect) (level e.up)
    ++ [.redDuty (level e.red)]

/-- (2) for the other two: the three zeroing writes, then departure, then arrival. -/
def Channel.crossWrites (e : Entry) (r : Channel) : List ChanWrite :=
  [.redDuty 0, .yellowDuty 0, .greenDuty 0] ++ dutyWrite? (colorOf r.startAspect) (level e.down)
    ++ dutyWrite? (colorOf r.endAspect) (level e.up)

/-- The writes of one walk step on entry `e`. -/
def Channel.takeWrites (w : Route) (len : Nat) (e : Entry) (r : Channel) : List ChanWrite :=
  match w with
  | .gy => r.throughRedWrites e ++ r.stepWrites len
  | .red => r.crossWrites e ++ r.stepWrites len
  | .fade =>
    if r.endAspect = .off ∧ e.down = 0 then r.finishWrites else r.crossWrites e ++ r.stepWrites len

/-- The writes of one step of a walk over `t`. -/
def Channel.walkTableWrites (w : Route) (t : Table) (r : Channel) : List ChanWrite :=
  match tableGet t r.phase.toNat with
  | none => r.finishWrites
  | some e => r.takeWrites w (tableLen t) e

/-- The writes of the skip loop: one of `phase` a round (41 R136; log entry 13). -/
def skipWrites (t : Table) (fuel : Nat) (p : Byte) : List ChanWrite :=
  match fuel with
  | 0 => []
  | n + 1 =>
    match tableGet t p.toNat with
    | some e => if e.up = 0 then .phase (p + 1) :: skipWrites t n (p + 1) else []
    | none => []

/-- The skip loop's writes where it runs. -/
def Channel.skipLeadingWrites (t : Table) (r : Channel) : List ChanWrite :=
  if r.startAspect = .off then skipWrites t (tableLen t) r.phase else []

/-- (1) step 2: `phase`, then `end_aspect`. -/
def Channel.beginWrites (t : Aspect) (r : Channel) : List ChanWrite :=
  if r.startAspect = r.endAspect ∧ t ≠ r.endAspect then [.phase 0, .endAspect t] else []

/-- Step 3's writes. -/
def Channel.walkWrites (cfg : Config) (r : Channel) : List ChanWrite :=
  if r.startAspect = r.endAspect then []
  else
    match r.route with
    | .gy => r.walkTableWrites .gy cfg.gy
    | .red => r.walkTableWrites .red cfg.red
    | .fade =>
      r.skipLeadingWrites (fadeTable cfg)
        ++ (r.skipLeading (fadeTable cfg)).walkTableWrites .fade (fadeTable cfg)

/-- (4) step 4: `red`, `yellow`, `green`. -/
def Channel.settleWrites (r : Channel) : List ChanWrite :=
  if r.startAspect = r.endAspect then
    [.redDuty (steadyDuty r.endAspect .red), .yellowDuty (steadyDuty r.endAspect .yellow),
      .greenDuty (steadyDuty r.endAspect .green)]
  else []

/-- The byte writes of one ADVANCE of a record, in the order of 41 R148. -/
def Channel.advanceWrites (cfg : Config) (flasher : Bool) (r : Channel) : List ChanWrite :=
  r.beginWrites (effective r.nextAspect flasher)
    ++ (r.begin (effective r.nextAspect flasher)).walkWrites cfg
    ++ ((r.begin (effective r.nextAspect flasher)).walk cfg).settleWrites

/-! ### The meanings -/

/-- SET_TARGET (41 R122). -/
def execSetTarget (k : Ch) (code : Byte) (s : State) : Host.Outcome State Fault Refusal :=
  .next (s.setTarget k (decodeAspect code))

/-- SET_OPTIONS (41 R124). -/
def execSetOptions (k : Ch) (b : Byte) (s : State) : Host.Outcome State Fault Refusal :=
  .next (s.setOptions k b)

/-- ADVANCE (41 R125), alone: one unit (43 R197). -/
def execAdvance (k : Ch) (flasher : Bool) (s : State) : Host.Outcome State Fault Refusal :=
  .next (s.advance k flasher)

end Sys2Proof.Machine
end

