-- ==== Sys2Proof/Machine/CommandBytes.lean ====
section
/-! DEFINITION. The rows that are data of the document run as commands (00 R3): a register-map command byte does
to its channel, `cmdCh`, what a POLL that reads it does (43 R195; log entries 10 and 11), and a table entry does
what the walk that reads it does (41 R131; log entry 12). -/

namespace Sys2Proof.Machine

/-! ### Aspect bytes (30 R70, R71; 41 R122) -/

/-- Code 0x00. -/
def execAspectOff (s : State) : Host.Outcome State Fault Refusal :=
  .next (s.setTarget s.cmdCh .off)

/-- Code 0x01. -/
def execAspectGreen (s : State) : Host.Outcome State Fault Refusal :=
  .next (s.setTarget s.cmdCh .green)

/-- Code 0x02. -/
def execAspectFlashGreen (s : State) : Host.Outcome State Fault Refusal :=
  .next (s.setTarget s.cmdCh .flashGreen)

/-- Code 0x03. -/
def execAspectYellow (s : State) : Host.Outcome State Fault Refusal :=
  .next (s.setTarget s.cmdCh .yellow)

/-- Code 0x04. -/
def execAspectFlashYellow (s : State) : Host.Outcome State Fault Refusal :=
  .next (s.setTarget s.cmdCh .flashYellow)

/-- Code 0x05. -/
def execAspectRed (s : State) : Host.Outcome State Fault Refusal :=
  .next (s.setTarget s.cmdCh .red)

/-- Code 0x06. -/
def execAspectFlashRed (s : State) : Host.Outcome State Fault Refusal :=
  .next (s.setTarget s.cmdCh .flashRed)

/-- Code 0x07. -/
def execAspectLunar (s : State) : Host.Outcome State Fault Refusal :=
  .next (s.setTarget s.cmdCh .lunar)

/-- Codes 0x08..0x0F: "any other value treated as Off" (30 R71); the code itself plays no part. -/
def execAspectInvalid08 (s : State) : Host.Outcome State Fault Refusal :=
  .next (s.setTarget s.cmdCh .off)

/-- Codes 0x10..0x1F: Off. -/
def execAspectInvalid10 (s : State) : Host.Outcome State Fault Refusal :=
  .next (s.setTarget s.cmdCh .off)

/-- Codes 0x20..0x3F: Off. -/
def execAspectInvalid20 (s : State) : Host.Outcome State Fault Refusal :=
  .next (s.setTarget s.cmdCh .off)

/-- Codes 0x40..0x7F: Off. -/
def execAspectInvalid40 (s : State) : Host.Outcome State Fault Refusal :=
  .next (s.setTarget s.cmdCh .off)

/-- Codes 0x80..0xFF: Off. -/
def execAspectInvalid80 (s : State) : Host.Outcome State Fault Refusal :=
  .next (s.setTarget s.cmdCh .off)

/-! ### Option bytes (30 R72; 41 R124): the whole byte acts, whichever of its fields names the row -/

/-- POL `10`. -/
def execOptionPolCommonAnode (rest : BitVec 6) (s : State) : Host.Outcome State Fault Refusal :=
  .next (s.setOptions s.cmdCh (2#2 ++ rest))

/-- POL `01`. -/
def execOptionPolCommonCathode (rest : BitVec 6) (s : State) : Host.Outcome State Fault Refusal :=
  .next (s.setOptions s.cmdCh (1#2 ++ rest))

/-- POL `00`: the polarity follows the debounced sense bit of now (D23). -/
def execOptionPolFromSense (rest : BitVec 6) (s : State) : Host.Outcome State Fault Refusal :=
  .next (s.setOptions s.cmdCh (0#2 ++ rest))

/-- POL `11`: common-cathode. -/
def execOptionPolInvalid (rest : BitVec 6) (s : State) : Host.Outcome State Fault Refusal :=
  .next (s.setOptions s.cmdCh (3#2 ++ rest))

/-- TOPO `000`. -/
def execOptionTopoThreeLamp (hi : BitVec 5) (s : State) : Host.Outcome State Fault Refusal :=
  .next (s.setOptions s.cmdCh (hi ++ 0#3))

/-- TOPO `001`. -/
def execOptionTopoSearchlight (hi : BitVec 5) (s : State) : Host.Outcome State Fault Refusal :=
  .next (s.setOptions s.cmdCh (hi ++ 1#3))

/-- TOPO `010` and `011`: three-lamp. -/
def execOptionTopoInvalid2 (hi : BitVec 5) (topo : BitVec 3) (s : State) : Host.Outcome State Fault Refusal :=
  .next (s.setOptions s.cmdCh (hi ++ topo))

/-- TOPO `100` to `111`: three-lamp. -/
def execOptionTopoInvalid4 (hi : BitVec 5) (topo : BitVec 3) (s : State) : Host.Outcome State Fault Refusal :=
  .next (s.setOptions s.cmdCh (hi ++ topo))

/-! ### A table entry (30 R74; 41 R131) -/

/-- TABLE_ENTRY: the entry drives one step of channel `cmdCh`'s walk. -/
def execTableEntry (down up red : BitVec 5) (s : State) : Host.Outcome State Fault Refusal :=
  .next (s.setChan s.cmdCh ((s.chan s.cmdCh).runEntry s.cfg ⟨down, up, red⟩))

end Sys2Proof.Machine
end

