-- ==== Sys2Proof/Machine/Debounce.lean ====
section
/-! DEFINITION. The debounce filter (40_debounce.md): DEB_INIT, DEB_SAMPLE, DEB_STATE. -/

namespace Sys2Proof.Machine

/-- DEB_INIT (40 R101). -/
def execDebInit (v : Byte) (s : State) : Host.Outcome State Fault Refusal :=
  .next { s with debState := v, clockA := 0, clockB := 0 }

/-- DEB_SAMPLE (40 R102); the value it returns is kept for an observer (43 R204; log entry 9). -/
def execDebSample (raw : Byte) (s : State) : Host.Outcome State Fault Refusal :=
  .next { s.debounce raw with result := s.debChanged raw }

/-- DEB_STATE (40 R103): it returns the debounced byte and has no side effect. -/
def execDebState (s : State) : Host.Outcome State Fault Refusal :=
  .next { s with result := s.debState }

end Sys2Proof.Machine
end

