-- ==== Sys2Proof/Machine/HostMoves.lean ====
section
/-! DEFINITION. The host's moves (43 §3): HOST_WRITE, HOST_BUSY, HOST_SENSE. -/

namespace Sys2Proof.Machine

/-- A byte written by the host at offset `a`; an offset above 23 does not exist (43 R199, 20 R50). -/
def State.hostWrite (s : State) (a v : Byte) : Host.Outcome State Fault Refusal :=
  if h : a.toNat < 24 then .next (s.writeReg ⟨a.toNat, h⟩ v) else .fault .noSuchRegister

/-- HOST_WRITE at 0 to 15, the bytes POLL reads (43 R199). -/
def execHostWrite (a v : Byte) (s : State) : Host.Outcome State Fault Refusal :=
  s.hostWrite a v

/-- HOST_WRITE at 16 to 23, the bytes no operation reads (43 R199, D3). -/
def execHostWriteUnread (a v : Byte) (s : State) : Host.Outcome State Fault Refusal :=
  s.hostWrite a v

/-- HOST_BUSY (43 R200). -/
def execHostBusy (l : Bool) (s : State) : Host.Outcome State Fault Refusal :=
  .next { s with busBusy := l }

/-- HOST_SENSE (43 R201). -/
def execHostSense (v : Byte) (s : State) : Host.Outcome State Fault Refusal :=
  .next { s with senseRaw := v }

end Sys2Proof.Machine
end

