-- ==== Sys2Proof/Machine/ResetOp.lean ====
section
/-! DEFINITION. The RESET operation (70 R230, R231, D47). -/

namespace Sys2Proof.Machine

/-- Every block-owned value of 70 R230; host state (`regmap`, `g.bus_busy`, `g.sense_raw`) is not changed. The
main loop starts its first pass (70 R233; log entry 16). -/
def State.resetBlock (s : State) : State :=
  { s with
    chans := Bank.ofFn fun _ => Channel.atReset
    updateFlag := false
    pwmPhase := 0
    flasher := false
    flashCount := 0
    msAcc := 0
    msCount := 0
    debState := s.cfg.initSenseByte
    clockA := 0
    clockB := 0
    out := Bank.ofFn fun _ => Lines.unset
    main := .serviceRead }

/-- RESET (70 R231). -/
def execReset (s : State) : Host.Outcome State Fault Refusal :=
  .next s.resetBlock

end Sys2Proof.Machine
end

