-- ==== Sys2Proof/Machine/PwmOutput.lean ====
section
/-! DEFINITION. The software-PWM output stage (42_pwm_output.md): DRIVE and TICK. -/

namespace Sys2Proof.Machine

/-- TICK: drive first, then the phase counter and the wrap flag, the millisecond counter, the flasher
(42 R173, R174, 60 R215). -/
def State.tick (s : State) : State :=
  (s.driveAll s.pwmPhase).bumpPhase.bumpMillis.bumpFlasher

/-- DRIVE (42 R170). -/
def execDrive (k : Ch) (p : BitVec 5) (s : State) : Host.Outcome State Fault Refusal :=
  .next (s.drive k p)

/-- TICK (42 R173): one atomic step (43 R191). -/
def execTick (s : State) : Host.Outcome State Fault Refusal :=
  .next s.tick

end Sys2Proof.Machine
end

