-- ==== Sys2Proof/Machine/Scheduling.lean ====
section
/-! DEFINITION. The main loop (43_scheduling.md): SERVICE and POLL alone, each one unit (43 R197), and the
main-loop agent's programs cut into their atomic units. -/

namespace Sys2Proof.Machine

/-! ### SERVICE and POLL alone -/

/-- ADVANCE of channels 0 to 7, ascending, with one flasher value; a channel's ADVANCE reads no other channel
(41 R120, 43 R193). -/
def State.advanceAll (s : State) (flasher : Bool) : State :=
  { s with chans := Bank.ofFn fun k => (s.chan k).advance s.cfg flasher }

/-- SERVICE in one piece (43 R193). -/
def State.service (s : State) : State :=
  if s.updateFlag then { s with updateFlag := false }.advanceAll s.flasher else s

/-- The register-map part of POLL: SET_TARGET and SET_OPTIONS of each channel from its two bytes (43 R195). -/
def State.takeCommands (s : State) : State :=
  { s with
    chans := Bank.ofFn fun k =>
      ((s.chan k).setTarget (decodeAspect (s.readReg (aspectOffset k)))).setOptions s.cfg.senseAnodeLevel
        (s.readReg (optionOffset k)) s.senseBit }

/-- POLL in one piece: the sense sample, whose result is discarded (D40), then, when the bus is idle, the
register map (43 R195). -/
def State.poll (s : State) : State :=
  if s.busBusy then s.debounce s.senseRaw else (s.debounce s.senseRaw).takeCommands

/-- SERVICE (43 R193). -/
def execService (s : State) : Host.Outcome State Fault Refusal :=
  .next s.service

/-- POLL (43 R195). -/
def execPoll (s : State) : Host.Outcome State Fault Refusal :=
  .next s.poll

/-! ### The main-loop agent, unit by unit (43 R192, R197) -/

/-- Where the main loop stands after the ADVANCE of channel `k`. -/
def afterAdvance (k : Ch) : MainLoop :=
  if h : k.val + 1 < 8 then .advance ⟨k.val + 1, h⟩ else .serviceDone

/-- Where the main loop stands after POLL has served channel `k`: the pass is over after channel 7. -/
def afterPollChannel (k : Ch) : MainLoop :=
  if h : k.val + 1 < 8 then .pollAspect ⟨k.val + 1, h⟩ else .serviceRead

/-- One unit of channel `k`'s ADVANCE; the ADVANCE is over after its last write, or when its last reads find nothing
more to write (log entry 13). -/
def State.advanceUnit (s : State) (k : Ch) (u : AdvanceUnit) : State :=
  match u with
  | .write w p => { s.setChan k ((s.chan k).write w) with main := .writing k p }
  | .last w => { s.setChan k ((s.chan k).write w) with main := afterAdvance k }
  | .done => { s with main := afterAdvance k }

/-- The first unit of channel `k`'s ADVANCE, which reads the flasher (43 R194): all of it under `per_channel`,
its first byte write with the reads before it under `per_write` (43 R197). -/
def State.beginAdvance (s : State) (k : Ch) : State :=
  match s.cfg.granularity with
  | .perChannel => { s.advance k s.flasher with main := afterAdvance k }
  | .perWrite => s.advanceUnit k ((s.chan k).beginUnit s.cfg s.flasher)

/-- S1: read the wrap flag; if it is not set the SERVICE is over (43 R193). -/
def State.unitS1 (s : State) : State :=
  { s with main := if s.updateFlag then .serviceClear else .serviceDone }

/-- S2: clear the wrap flag; a wrap since S1 is lost (43 R193). -/
def State.unitS2 (s : State) : State := { s with updateFlag := false, main := .advance 0 }

/-- P1: debounce the sense byte (43 R195). -/
def State.unitP1 (s : State) : State := { s.debounce s.senseRaw with main := .pollBusy }

/-- P2: the register map is read only when the bus is idle (43 R195, 20 R61). -/
def State.unitP2 (s : State) : State :=
  { s with main := if s.busBusy then .serviceRead else .pollAspect 0 }

/-- The main loop's next atomic unit. `poll` says whether a pass that has done its SERVICE goes on to a POLL
(43 R192, R198); otherwise the next pass begins with its S1 (log entry 22). -/
def State.mainUnit (s : State) (poll : Bool) : State :=
  match s.main with
  | .serviceRead => s.unitS1
  | .serviceClear => s.unitS2
  | .advance k => s.beginAdvance k
  | .writing k p => s.advanceUnit k ((s.chan k).unitAt s.cfg p)
  | .serviceDone => if poll then s.unitP1 else s.unitS1
  | .pollBusy => s.unitP2
  | .pollAspect k => { s with main := .pollOption k (s.readReg (aspectOffset k)) }
  | .pollOption k a => { s with main := .pollTarget k a (s.readReg (optionOffset k)) }
  | .pollTarget k a o => { s.setTarget k (decodeAspect a) with main := .pollSetOptions k o }
  | .pollSetOptions k o => { s.setOptions k o with main := afterPollChannel k }

/-! ### The schedule (log entries 5 and 6) -/

/-- The operation an agent's step is, if it is one of 30 R76: the tick and host agents' steps are (43 R190). -/
def agentInstr (a : AgentStep) : Option Instr :=
  match a with
  | .tick => some .tick
  | .main _ => none
  | .hostWrite r v =>
      if r.val < 16 then some (.hostWrite (BitVec.ofNat 8 r.val) v)
      else some (.hostWriteUnread (BitVec.ofNat 8 r.val) v)
  | .hostBusy l => some (.hostBusy l)
  | .hostSense v => some (.hostSense v)

/-- Whether the agent's step is the main loop's and goes on to a POLL. -/
def agentPolls (a : AgentStep) : Bool :=
  match a with
  | .main p => p
  | .tick | .hostWrite _ _ | .hostBusy _ | .hostSense _ => false

end Sys2Proof.Machine
end

