-- ==== Sys2Proof/Machine/Dispatch.lean ====
section
/-! DEFINITION. The one dispatch: each row of the opcode table to its meaning. -/

namespace Sys2Proof.Machine

def exec (i : Instr) (s : State) : Host.Outcome State Fault Refusal :=
  match i with
  -- aspect bytes
  | .aspectOff => Sys2Proof.Machine.execAspectOff s
  | .aspectGreen => Sys2Proof.Machine.execAspectGreen s
  | .aspectFlashGreen => Sys2Proof.Machine.execAspectFlashGreen s
  | .aspectYellow => Sys2Proof.Machine.execAspectYellow s
  | .aspectFlashYellow => Sys2Proof.Machine.execAspectFlashYellow s
  | .aspectRed => Sys2Proof.Machine.execAspectRed s
  | .aspectFlashRed => Sys2Proof.Machine.execAspectFlashRed s
  | .aspectLunar => Sys2Proof.Machine.execAspectLunar s
  | .aspectInvalid08 _ => Sys2Proof.Machine.execAspectInvalid08 s
  | .aspectInvalid10 _ => Sys2Proof.Machine.execAspectInvalid10 s
  | .aspectInvalid20 _ => Sys2Proof.Machine.execAspectInvalid20 s
  | .aspectInvalid40 _ => Sys2Proof.Machine.execAspectInvalid40 s
  | .aspectInvalid80 _ => Sys2Proof.Machine.execAspectInvalid80 s
  -- option bytes
  | .optionPolCommonAnode rest => Sys2Proof.Machine.execOptionPolCommonAnode rest s
  | .optionPolCommonCathode rest => Sys2Proof.Machine.execOptionPolCommonCathode rest s
  | .optionPolFromSense rest => Sys2Proof.Machine.execOptionPolFromSense rest s
  | .optionPolInvalid rest => Sys2Proof.Machine.execOptionPolInvalid rest s
  | .optionTopoThreeLamp hi => Sys2Proof.Machine.execOptionTopoThreeLamp hi s
  | .optionTopoSearchlight hi => Sys2Proof.Machine.execOptionTopoSearchlight hi s
  | .optionTopoInvalid2 hi topo => Sys2Proof.Machine.execOptionTopoInvalid2 hi topo s
  | .optionTopoInvalid4 hi topo => Sys2Proof.Machine.execOptionTopoInvalid4 hi topo s
  -- table entry
  | .tableEntry down up red => Sys2Proof.Machine.execTableEntry down up red s
  -- operation words
  | .reset => Sys2Proof.Machine.execReset s
  | .setTarget k code => Sys2Proof.Machine.execSetTarget k code s
  | .advance k flasher => Sys2Proof.Machine.execAdvance k flasher s
  | .drive k p => Sys2Proof.Machine.execDrive k p s
  | .tick => Sys2Proof.Machine.execTick s
  | .service => Sys2Proof.Machine.execService s
  | .poll => Sys2Proof.Machine.execPoll s
  | .debInit v => Sys2Proof.Machine.execDebInit v s
  | .debSample raw => Sys2Proof.Machine.execDebSample raw s
  | .debState => Sys2Proof.Machine.execDebState s
  | .hostWrite a v => Sys2Proof.Machine.execHostWrite a v s
  | .hostWriteUnread a v => Sys2Proof.Machine.execHostWriteUnread a v s
  | .hostBusy l => Sys2Proof.Machine.execHostBusy l s
  | .hostSense v => Sys2Proof.Machine.execHostSense v s
  | .setOptions k b => Sys2Proof.Machine.execSetOptions k b s

end Sys2Proof.Machine
end

