-- ==== Sys2Proof/Machine/Fetch.lean ====
section
/-! DEFINITION. How an item of the schedule comes to run: an agent takes its step, or a word is decoded and its
instruction runs (43 R190, R197; log entries 5 and 10). -/

namespace Sys2Proof.Machine

/-- A decoded word runs; a refused word spells no operation and has no step (30 R77). -/
def runDecoded (d : Except DecodeError Instr) (s : State) : Host.Outcome State Fault Refusal :=
  match d with
  | .ok i => exec i s
  | .error e => .refused (.malformedWord e)

/-- A word run alone for channel `k`: the channel is selected first (log entry 10). -/
def runFor (k : Ch) (f : Format) (w : Nat) (s : State) : Host.Outcome State Fault Refusal :=
  runDecoded (decode f w) { s with cmdCh := k }

/-- An agent's step (43 R190): an operation, or the main loop's next unit. -/
def runAgent (a : AgentStep) (s : State) : Host.Outcome State Fault Refusal :=
  match agentInstr a with
  | some i => exec i s
  | none => .next (s.mainUnit (agentPolls a))

/-- An item of the schedule. -/
def runItem (it : Item) (s : State) : Host.Outcome State Fault Refusal :=
  match it with
  | .agent a => runAgent a s
  | .opWord w => runDecoded (decode .opWord w.toNat) s
  | .aspectByte k b => runFor k .aspectByte b.toNat s
  | .optionPol k b => runFor k .optionPol b.toNat s
  | .optionTopo k b => runFor k .optionTopo b.toNat s
  | .tableEntry k w => runFor k .tableEntry w.toNat s
  | .noFormat => .refused (.malformedWord .wordLength)

/-- The item that places a word of `nbits` bits for channel `k`, in the format of that length: an operation word, a
packed table entry, or a command byte, read as an aspect byte (log entry 11). A length of no format
spells nothing and is refused, as `decodeTableWord` refuses it: 30 R79 fixes the lengths and does not say what
a word of another length does (DESIGN CHOICE, safe: log entry 11). -/
def itemOfWord (k : Ch) (nbits w : Nat) : Item :=
  match formatOfWidth nbits with
  | some .opWord => .opWord (BitVec.ofNat 24 w)
  | some .tableEntry => .tableEntry k (BitVec.ofNat 16 w)
  | some .aspectByte => .aspectByte k (BitVec.ofNat 8 w)
  | some .optionPol => .optionPol k (BitVec.ofNat 8 w)
  | some .optionTopo => .optionTopo k (BitVec.ofNat 8 w)
  | none => .noFormat

end Sys2Proof.Machine
end

