-- ==== Sys2Proof/Machine/Step.lean ====
section
/-! DEFINITION. One step: the next item of the schedule, or, with nothing placed, the agent that the free choice
names (10 R36, 43 R190). The block has no program counter (10 R24). -/

namespace Sys2Proof.Machine

/-- One step of the machine. -/
def step (s : State) : Host.Outcome State Fault Refusal :=
  match s.sched with
  | it :: rest => runItem it { s with sched := rest }
  | [] => runAgent (Config.freeAgent s.choice) { s with choice := s.choice + 1 }

/-- `s` with a word of `nbits` bits placed first in the schedule, so that the next step runs it (log entry 5). -/
def State.withFetchWord (s : State) (nbits w : Nat) : State :=
  { s with sched := itemOfWord s.cmdCh nbits w :: s.sched }

end Sys2Proof.Machine
end

