-- ==== Sys2Proof/Safety.lean ====
section
/-! DEFINITION. What counts as a good state, what an operation leaves unchanged, and runs of several operations:
the terms in which claims are stated. -/

namespace Sys2Proof.Machine

/-! ### Good states -/

/-- A base aspect (00 R12): the only ones that `start_aspect` and `end_aspect` hold (10 R23). -/
abbrev isBase (a : Aspect) : Prop := isFlashing a = false

/-- A record whose duties lie in 0..31 (10 R21, 41 R149 (e)), whose endpoints are base aspects (10 R23) and whose
phase is at most 32, the value that is reached only inside a call (D33). -/
abbrev Channel.InRange (r : Channel) : Prop :=
  r.redDuty.toNat ≤ 31 ∧ r.yellowDuty.toNat ≤ 31 ∧ r.greenDuty.toNat ≤ 31 ∧
    isBase r.startAspect ∧ isBase r.endAspect ∧ r.phase.toNat ≤ 32

/-- A record as operations leave it: in range, `phase` in 0..31, and `phase` 0 at steady state (10 R21, R22). -/
abbrev Channel.AtRest (r : Channel) : Prop :=
  r.InRange ∧ r.phase.toNat < 32 ∧ (r.startAspect = r.endAspect → r.phase = 0)

/-- A byte write that keeps a record in range. -/
abbrev ChanWrite.InRange (w : ChanWrite) : Prop :=
  match w with
  | .phase v => v.toNat ≤ 32
  | .startAspect a => isBase a
  | .endAspect a => isBase a
  | .redDuty v => v.toNat ≤ 31
  | .yellowDuty v => v.toNat ≤ 31
  | .greenDuty v => v.toNat ≤ 31

/-- The target that an ADVANCE has read and not yet written is a base aspect (41 R128). -/
abbrev AdvancePoint.InRange (p : AdvancePoint) : Prop :=
  match p with
  | .beginEnd t => isBase t
  | .dispatch | .skip | .zeroYellow _ _ | .zeroGreen _ _ | .departure _ _ | .arrival _ _ | .redField _ => True
  | .phase _ | .exhausted _ | .finishPhase | .settle | .settleYellow _ | .settleGreen _ => True

/-- The points at which the phase may stand at 32, past every table: after a rise of the phase and before `finish` has
set it to 0 (D33). -/
def AdvancePoint.late (p : AdvancePoint) : Bool :=
  match p with
  | .skip | .exhausted _ | .finishPhase => true
  | .beginEnd _ | .dispatch | .zeroYellow _ _ | .zeroGreen _ _ | .departure _ _ | .arrival _ _ | .redField _ => false
  | .phase _ | .settle | .settleYellow _ | .settleGreen _ => false

/-- What an interrupted ADVANCE has read keeps the record in range. -/
abbrev MainLoop.InRange (m : MainLoop) : Prop :=
  match m with
  | .writing _ p => p.InRange
  | .serviceRead | .serviceClear | .advance _ | .serviceDone | .pollBusy => True
  | .pollAspect _ | .pollOption _ _ | .pollTarget _ _ _ | .pollSetOptions _ _ => True

/-- The main loop stands inside the ADVANCE of channel `k`, where its phase may be 32. -/
abbrev MainLoop.LateIn (m : MainLoop) (k : Ch) : Prop :=
  match m with
  | .writing j p => j = k ∧ p.late = true
  | .serviceRead | .serviceClear | .advance _ | .serviceDone | .pollBusy => False
  | .pollAspect _ | .pollOption _ _ | .pollTarget _ _ _ | .pollSetOptions _ _ => False

/-- The invariant of every step: channel records in range (10 R21 to R23), with a phase of 32 only inside an
interrupted ADVANCE (D33), the counters below their moduli (60 R219), `clock_B` 0 (40 R102), the register map in its
canonical form. -/
abbrev State.Inv (s : State) : Prop :=
  (∀ k : Ch, (s.chan k).InRange ∧ ((s.chan k).phase.toNat = 32 → s.main.LateIn k)) ∧ s.main.InRange ∧
    s.msAcc < s.cfg.ticksPerMs ∧ s.flashCount < s.cfg.flashToggleTicks ∧ s.clockB = 0 ∧
    Memory.wf s.cfg s.regmap = true

/-! ### Frames -/

/-- The counters and flags of 10 R25 to R29. -/
abbrev SameTimers (s t : State) : Prop :=
  t.pwmPhase = s.pwmPhase ∧ t.updateFlag = s.updateFlag ∧ t.flasher = s.flasher ∧
    t.flashCount = s.flashCount ∧ t.msAcc = s.msAcc ∧ t.msCount = s.msCount

/-- The debouncer (10 R34). -/
abbrev SameDebouncer (s t : State) : Prop :=
  t.debState = s.debState ∧ t.clockA = s.clockA ∧ t.clockB = s.clockB

/-- Every byte of the register map reads as before. -/
abbrev SameRegmap (s t : State) : Prop := ∀ a : Fin 24, t.readReg a = s.readReg a

/-- The host's levels (10 R31, R32). -/
abbrev SameLevels (s t : State) : Prop := t.busBusy = s.busBusy ∧ t.senseRaw = s.senseRaw

/-- The 24 lines (10 R35). -/
abbrev SameOutputs (s t : State) : Prop := ∀ k : Ch, t.out.get k = s.out.get k

/-- Every channel record. -/
abbrev SameChans (s t : State) : Prop := ∀ k : Ch, t.chan k = s.chan k

/-- Every channel record but `k`'s (41 R120). -/
abbrev SameOtherChans (k : Ch) (s t : State) : Prop := ∀ j : Ch, j ≠ k → t.chan j = s.chan j

/-- The parameters, and the model's own fields but the returned value. -/
abbrev SameModel (s t : State) : Prop :=
  t.cfg = s.cfg ∧ t.main = s.main ∧ t.cmdCh = s.cmdCh ∧ t.sched = s.sched ∧ t.choice = s.choice

/-- Nothing changes but the record of channel `k`. -/
abbrev OnlyChan (k : Ch) (s t : State) : Prop :=
  SameOtherChans k s t ∧ SameTimers s t ∧ SameDebouncer s t ∧ SameRegmap s t ∧ SameLevels s t ∧
    SameOutputs s t ∧ SameModel s t ∧ t.result = s.result

/-- Unit `u` of channel `k`'s ADVANCE leads from `s` to `t`: its one byte write is done, or none where nothing is left to
write, the main loop stands at the unit's next point or past the ADVANCE, and nothing else changes (43 R197). -/
abbrev State.DoesUnit (s : State) (k : Ch) (u : AdvanceUnit) (t : State) : Prop :=
  (match u with
    | .write w p => t.chan k = (s.chan k).write w ∧ t.main = .writing k p
    | .last w => t.chan k = (s.chan k).write w ∧ t.main = afterAdvance k
    | .done => t.chan k = s.chan k ∧ t.main = afterAdvance k) ∧
  OnlyChan k s { t with main := s.main }

/-- Nothing changes but the debouncer and the returned value. -/
abbrev OnlyDebouncer (s t : State) : Prop :=
  SameChans s t ∧ SameTimers s t ∧ SameRegmap s t ∧ SameLevels s t ∧ SameOutputs s t ∧ SameModel s t

/-! ### Settled and quiescent (43 R203) -/

/-- Channel `k` is settled: steady on its effective target, with the steady duties. -/
abbrev State.Settled (s : State) (k : Ch) : Prop :=
  (s.chan k).startAspect = (s.chan k).endAspect ∧
    (s.chan k).endAspect = effective (s.chan k).nextAspect s.flasher ∧
    ∀ c : Color, (s.chan k).duty c = steadyDuty (s.chan k).endAspect c

/-- The block is quiescent: every channel is settled and the wrap flag is not set. -/
abbrev State.Quiescent (s : State) : Prop := (∀ k : Ch, s.Settled k) ∧ s.updateFlag = false

/-! ### Runs -/

/-- Several instructions one after the other. -/
def execAll (is : List Instr) (s : State) : Host.Outcome State Fault Refusal :=
  match is with
  | [] => .next s
  | i :: rest =>
    match exec i s with
    | .next t => execAll rest t
    | .fault e => .fault e
    | .refused e => .refused e

/-- Several steps of the machine. -/
def runSteps (n : Nat) (s : State) : Host.Outcome State Fault Refusal :=
  match n with
  | 0 => .next s
  | m + 1 =>
    match step s with
    | .next t => runSteps m t
    | .fault e => .fault e
    | .refused e => .refused e

/-! ### Infinite runs and fairness (43 R203) -/

/-- The three agents (43 R190). -/
inductive Agent where
  | tick
  | mainLoop
  | host
  deriving DecidableEq, Repr, Inhabited

/-- The agent whose step it is. -/
def agentOf (a : AgentStep) : Agent :=
  match a with
  | .tick => .tick
  | .main _ => .mainLoop
  | .hostWrite _ _ | .hostBusy _ | .hostSense _ => .host

/-- A run: an infinite interleaving of agents' steps, `α n` the step that leads from `σ n` to `σ (n + 1)`. -/
def IsRun (σ : Nat → State) (α : Nat → AgentStep) : Prop :=
  ∀ n : Nat, runAgent (α n) (σ n) = .next (σ (n + 1))

/-- An agent has an enabled step. -/
def Agent.EnabledIn (g : Agent) (s : State) : Prop :=
  ∃ (a : AgentStep) (t : State), agentOf a = g ∧ runAgent a s = .next t

/-- Weak fairness to an agent: enabled from some point on, it steps after that point. -/
def WeaklyFairTo (g : Agent) (σ : Nat → State) (α : Nat → AgentStep) : Prop :=
  ∀ n : Nat, (∀ m : Nat, n ≤ m → g.EnabledIn (σ m)) → ∃ m : Nat, n ≤ m ∧ agentOf (α m) = g

/-- A run as 43 R203 takes it: weakly fair to the tick agent and the main-loop agent (D25). -/
def IsFairRun (σ : Nat → State) (α : Nat → AgentStep) : Prop :=
  IsRun σ α ∧ WeaklyFairTo .tick σ α ∧ WeaklyFairTo .mainLoop σ α

/-! ### Placed units, and observation -/

/-- `s` with `n` units of the main-loop agent, none going on to a POLL unless `poll`, placed first. -/
def withMainUnits (poll : Bool) (n : Nat) (s : State) : State :=
  { s with sched := List.replicate n (Item.agent (.main poll)) ++ s.sched }

/-- The level of line `out[k][c]` after DRIVE(k, p), none if it could not be read. -/
def levelAfterDrive (s : State) (k : Ch) (p : BitVec 5) (c : Color) : Option Bool :=
  match exec (.drive k p) s with
  | .next t => (t.out.get k).line c
  | .fault _ => none
  | .refused _ => none

/-- The table that the transition of `r` steps through (41 R132 to R135). -/
def activeTable (cfg : Config) (r : Channel) : Table := routeTable cfg r.route

end Sys2Proof.Machine
end

