-- ==== Sys2Proof/Certificates/Slice0/Obligations.lean ====
section
/-! DEFINITION. The statements about the machine, each from the numbered rules of spec/. -/

open Sys2Proof Sys2Proof.Machine

/-! ### Words shared by the statements -/

namespace Sys2Proof.Claims

/-- `i` requests aspect `a` of the channel that the command byte belongs to, and does nothing else. -/
def Requests (i : Instr) (a : Aspect) : Prop :=
  ∀ s : State, ∃ t : State, exec i s = .next t ∧
    t.chan s.cmdCh = { s.chan s.cmdCh with nextAspect := a } ∧ OnlyChan s.cmdCh s t

/-- `i` sets the two options of the channel that the command byte belongs to, and does nothing else; the polarity
may depend on the state. -/
def Configures (i : Instr) (searchlight : Bool) (invert : State → Bool) : Prop :=
  ∀ s : State, ∃ t : State, exec i s = .next t ∧
    t.chan s.cmdCh = { s.chan s.cmdCh with optSearchlight := searchlight, optInvert := invert s } ∧
    OnlyChan s.cmdCh s t

/-- The polarity of POL value `pol` (30 R72): 10 anode, 01 cathode, 00 from the sense line, 11 cathode. -/
def invertOf (pol : Nat) (s : State) : Bool :=
  if pol = 2 then false
  else if pol = 0 then !(s.debState.getLsbD 0 == s.cfg.senseAnodeLevel)
  else true

/-- The aspect of a code (30 R70, R71). -/
def aspectOfCode (n : Nat) : Aspect :=
  if n = 1 then .green else if n = 2 then .flashGreen else if n = 3 then .yellow
  else if n = 4 then .flashYellow else if n = 5 then .red else if n = 6 then .flashRed
  else if n = 7 then .lunar else .off

/-- The effective target of a requested aspect (41 R128): Off for a flashing variant with the flasher bit 0, its base
colour with the bit 1, else the requested aspect itself. -/
def targetOf (a : Aspect) (f : Bool) : Aspect :=
  match a, f with
  | .flashGreen, false | .flashYellow, false | .flashRed, false => .off
  | .flashGreen, true => .green
  | .flashYellow, true => .yellow
  | .flashRed, true => .red
  | a, _ => a

/-- The record with a transition to `t` begun and no table entry consumed (41 R129). -/
def begunTo (r : Channel) (t : Aspect) : Channel := { r with phase := 0, endAspect := t }

/-- The record of channel `k` after ADVANCE(k, f) is `r`, and nothing else changed. -/
def AdvancesTo (s : State) (k : Ch) (f : Bool) (r : Channel) : Prop :=
  ∃ t : State, exec (.advance k f) s = .next t ∧ t.chan k = r ∧ OnlyChan k s t

/-- The record at steady state on aspect `a` with its duties forced (41 R127, R141). -/
def steadyOn (r : Channel) (a : Aspect) : Channel :=
  { r with
    startAspect := a
    endAspect := a
    phase := 0
    redDuty := steadyDuty a .red
    yellowDuty := steadyDuty a .yellow
    greenDuty := steadyDuty a .green }

/-- The record after a table step that is not the table's last: the given duties, the phase after `p`. -/
def steppedTo (r : Channel) (p : Byte) (red yellow green : Byte) : Channel :=
  { r with redDuty := red, yellowDuty := yellow, greenDuty := green, phase := p + 1 }

/-- One colour's duty in an involving-red or fade step: departure from `down`, arrival from `up`, else 0. -/
def crossDuty (r : Channel) (e : Entry) (c : Color) : Byte :=
  if colorOf r.endAspect = some c then e.up.setWidth 8
  else if colorOf r.startAspect = some c then e.down.setWidth 8
  else 0

/-- The duty that a walk step on entry `e` gives colour `c`: in the through-red walk red from `red`, the arriving
colour from `up`, the departing one from `down`; in the other two as `crossDuty` says. -/
def entryDuty (r : Channel) (e : Entry) (c : Color) : Byte :=
  if r.route = .gy then
    if c = .red then e.red.setWidth 8
    else if colorOf r.endAspect = some c then e.up.setWidth 8
    else e.down.setWidth 8
  else crossDuty r e c

/-- The record with its transition ended and its duties kept (41 R127). -/
def ended (r : Channel) : Channel := { r with startAspect := r.endAspect, phase := 0 }

/-- The record with an entry of a table of `len` entries passed: the phase one higher, and the transition ended where
that exhausts the table. -/
def passed (len : Nat) (r : Channel) : Channel :=
  if r.phase.toNat + 1 < len then { r with phase := r.phase + 1 } else ended r

/-- The ADVANCE of `s` on channel `k` that takes entry `e` at phase `p` of a table of `len` entries by the
involving-red or fade pattern. -/
def CrossStep (s : State) (k : Ch) (f : Bool) (len : Nat) (p : Byte) (e : Entry) : Prop :=
  AdvancesTo s k f
    (if p.toNat + 1 < len then
      steppedTo (s.chan k) p (crossDuty (s.chan k) e .red) (crossDuty (s.chan k) e .yellow)
        (crossDuty (s.chan k) e .green)
    else steadyOn (s.chan k) (s.chan k).endAspect)

/-! ### The byte writes of an ADVANCE in the order of 41 R148 -/

/-- The write of the duty of an aspect's colour; Off and Lunar have none. -/
def colorWrite (a : Aspect) (v : BitVec 5) : List ChanWrite :=
  match a with
  | .green | .flashGreen => [.greenDuty (v.setWidth 8)]
  | .yellow | .flashYellow => [.yellowDuty (v.setWidth 8)]
  | .red | .flashRed => [.redDuty (v.setWidth 8)]
  | .off | .lunar => []

/-- 41 R148 (4): the steady duties, red, yellow, green. -/
def steadyWrites (a : Aspect) : List ChanWrite :=
  [.redDuty (steadyDuty a .red), .yellowDuty (steadyDuty a .yellow), .greenDuty (steadyDuty a .green)]

/-- 41 R148 (3) and (4): the end of a transition to `a`, `start_aspect`, `phase`, then the steady duties. -/
def endWrites (a : Aspect) : List ChanWrite := [.startAspect a, .phase 0] ++ steadyWrites a

/-- The rise of `phase` from `p`, and the end of the transition to `a` where that exhausts a table of `len`
entries. -/
def passWrites (len : Nat) (p : Byte) (a : Aspect) : List ChanWrite :=
  [.phase (p + 1)] ++ if p.toNat + 1 < len then [] else endWrites a

/-- 41 R148 (2) for the involving-red and the fade walk: the three zeroing writes, departure, arrival. -/
def zeroedWrites (r : Channel) (e : Entry) : List ChanWrite :=
  [.redDuty 0, .yellowDuty 0, .greenDuty 0] ++ colorWrite r.startAspect e.down ++ colorWrite r.endAspect e.up

/-- The skip loop leads the fade of `r` from its phase to `q`: departing from Off the first entry with an up-phase, or
the end of the table; else the phase itself (41 R136). -/
def SkipsTo (cfg : Config) (r : Channel) (q : Byte) : Prop :=
  if r.startAspect = .off then
    r.phase.toNat ≤ q.toNat ∧ (q.toNat ≤ 32 ∨ q = r.phase) ∧
      (∀ (m : Nat) (x : Entry), r.phase.toNat ≤ m → m < q.toNat → tableGet (fadeTable cfg) m = some x → x.up = 0) ∧
      ∀ x : Entry, tableGet (fadeTable cfg) q.toNat = some x → x.up ≠ 0
  else q = r.phase

/-- The rounds of the skip loop from `p` to `q`, each a write of `phase` (log entry 13). -/
def skipRounds (p q : Byte) : List ChanWrite :=
  (List.range (q.toNat - p.toNat)).map fun n => .phase (p + BitVec.ofNat 8 (n + 1))

/-- The byte writes of an ADVANCE of a record at steady state (41 R148 (1) and (4)): the steady duties; or `phase`,
`end_aspect` and the writes of the transition begun. -/
def SteadyWritesInOrder (cfg : Config) (f : Bool) (r : Channel) : Prop :=
  r.startAspect = r.endAspect →
    r.advanceWrites cfg f =
      if targetOf r.nextAspect f = r.endAspect then steadyWrites r.endAspect
      else [.phase 0, .endAspect (targetOf r.nextAspect f)]
        ++ (begunTo r (targetOf r.nextAspect f)).advanceWrites cfg f

/-- The byte writes of a through-red step (41 R148 (2), R133): departure, arrival, red, then `phase`. -/
def ThroughRedWritesInOrder (cfg : Config) (f : Bool) (r : Channel) : Prop :=
  r.optSearchlight = true → ∀ e : Entry, tableGet cfg.gy r.phase.toNat = some e →
    (r.startAspect = .green → r.endAspect = .yellow → r.advanceWrites cfg f =
      [.greenDuty (e.down.setWidth 8), .yellowDuty (e.up.setWidth 8), .redDuty (e.red.setWidth 8)]
        ++ passWrites (tableLen cfg.gy) r.phase .yellow) ∧
    (r.startAspect = .yellow → r.endAspect = .green → r.advanceWrites cfg f =
      [.yellowDuty (e.down.setWidth 8), .greenDuty (e.up.setWidth 8), .redDuty (e.red.setWidth 8)]
        ++ passWrites (tableLen cfg.gy) r.phase .green)

/-- The byte writes of an involving-red step (41 R148 (2), R134): zeroing, departure, arrival, then `phase`. -/
def InvolvingRedWritesInOrder (cfg : Config) (f : Bool) (r : Channel) : Prop :=
  r.startAspect ≠ r.endAspect → r.route = .red → ∀ e : Entry, tableGet cfg.red r.phase.toNat = some e →
    r.advanceWrites cfg f = zeroedWrites r e ++ passWrites (tableLen cfg.red) r.phase r.endAspect

/-- The byte writes of a fade step (41 R148 (2), R135 to R138): the rounds of the skip loop; then, past the table's end
or where arriving at Off meets a zero down-phase, those of the end; else zeroing, departure, arrival, then `phase`. -/
def FadeWritesInOrder (cfg : Config) (f : Bool) (r : Channel) : Prop :=
  r.startAspect ≠ r.endAspect → r.route = .fade → ∀ q : Byte, SkipsTo cfg r q →
    r.advanceWrites cfg f = skipRounds r.phase q ++
      match tableGet (fadeTable cfg) q.toNat with
      | none => endWrites r.endAspect
      | some e =>
        if r.endAspect = .off ∧ e.down = 0 then endWrites r.endAspect
        else zeroedWrites r e ++ passWrites 32 q r.endAspect

/-- The byte writes of an ADVANCE that finds the phase past the end of a searchlight's table (41 R138): those of the
end. -/
def GuardWritesInOrder (cfg : Config) (f : Bool) (r : Channel) : Prop :=
  r.startAspect ≠ r.endAspect → r.route ≠ .fade → tableLen (activeTable cfg r) ≤ r.phase.toNat →
    r.advanceWrites cfg f = endWrites r.endAspect

/-! ### Units of the main loop -/

/-- The main loop's next unit, whether or not a finished SERVICE goes on to a POLL, leads from `s` to `t`. -/
def UnitLeadsTo (s t : State) : Prop := ∀ poll : Bool, runAgent (.main poll) s = .next t

/-- The main loop's next unit does what operation `i` does to the state, and then stands at `m`. -/
def UnitDoes (s : State) (i : Instr) (m : MainLoop) : Prop :=
  ∃ t : State, exec i s = .next t ∧ UnitLeadsTo s { t with main := m }

end Sys2Proof.Claims

open Sys2Proof.Claims

/-! ### Encodings (30_encoding.md) -/

/-- 30 R70 to R79: decoding the word of a well-formed instruction, in its format, gives it back. The word layout is
the spec's own (D17, D30). -/
def Obligations.DecodeOfEncodeGivesInstruction : Prop :=
  ∀ i : Instr, WellFormed i = true → decode (formatOf i) (encode i) = .ok i

/-- 30 R75 to R79: an accepted operation word spells one well-formed instruction and is that instruction's word
(D30). -/
def Obligations.AcceptedOperationWordReencodes : Prop :=
  ∀ (w : BitVec 24) (i : Instr), decode .opWord w.toNat = .ok i →
    WellFormed i = true ∧ formatOf i = .opWord ∧ encode i = w.toNat

/-- 30 R76, R77: exactly these operation words are refused (D30). -/
def Obligations.OperationWordRefusedExactlyAsRuled : Prop :=
  ∀ w : BitVec 24,
    let op := w.toNat / 0x100000
    let reserved := w.toNat / 0x10000 % 16
    let idx := w.toNat / 0x100 % 256
    let arg := w.toNat % 256
    (∃ e : DecodeError, decode .opWord w.toNat = .error e) ↔
      (op = 0xE ∨ op = 0xF ∨ reserved ≠ 0 ∨
        ((op = 0x0 ∨ op = 0x4 ∨ op = 0x5 ∨ op = 0x6 ∨ op = 0x9) ∧ (idx ≠ 0 ∨ arg ≠ 0)) ∨
        ((op = 0x7 ∨ op = 0x8 ∨ op = 0xC) ∧ idx ≠ 0) ∨
        ((op = 0x1 ∨ op = 0x2 ∨ op = 0x3 ∨ op = 0xD) ∧ 8 ≤ idx) ∨
        (op = 0x2 ∧ 2 ≤ arg) ∨ (op = 0x3 ∧ 32 ≤ arg) ∨
        (op = 0xA ∧ 24 ≤ idx) ∨ (op = 0xB ∧ (idx ≠ 0 ∨ 2 ≤ arg)))

/-- Words written out from the spec's encodings (30 R70, R72, R74, R76 and the words of R81): what they decode
to. -/
def Obligations.WordsFromTheSpecDecode : Prop :=
  decode .opWord 0x000000 = .ok .reset ∧
    decode .opWord 0x100005 = .ok (.setTarget 0 0x05) ∧
    decode .opWord 0x200301 = .ok (.advance 3 true) ∧
    decode .opWord 0x30001F = .ok (.drive 0 31) ∧
    decode .opWord 0x7000FF = .ok (.debInit 0xFF) ∧
    decode .opWord 0xA00881 = .ok (.hostWrite 8 0x81) ∧
    decode .opWord 0xD007C3 = .ok (.setOptions 7 0xC3) ∧
    decode .opWord 0x110005 = .error .reservedBits ∧
    decode .aspectByte 0x06 = .ok .aspectFlashRed ∧
    decode .aspectByte 0x2A = .ok (.aspectInvalid20 0x2A) ∧
    decode .optionPol 0x81 = .ok (.optionPolCommonAnode 1) ∧
    decode .optionTopo 0xC3 = .ok (.optionTopoInvalid2 0x18 3) ∧
    decode .tableEntry 0x43E0 = .ok (.tableEntry 0 31 16) ∧
    decode .tableEntry 0x8000 = .error .entryBit15

/-- 30 R71 (the codes of R70 are the spec's decision D1): every one of the 256 aspect bytes decodes, and running it
requests the aspect of its code, Off for 0x08..0xFF. -/
def Obligations.EveryAspectByteRequestsItsAspect : Prop :=
  ∀ b : Byte, ∃ i : Instr, decode .aspectByte b.toNat = .ok i ∧ Requests i (aspectOfCode b.toNat)

/-- 30 R70, R71, 41 R122: the aspect rows, each with its aspect. That a byte run alone acts on `cmdCh` is the
model's reading (log entry 10). That an INVALID row requests Off also for an operand outside the row, which no word
decodes to (0x05 would be Red by R71), is the model's choice (log entry 25); for the operands in the row it is R71's. -/
def Obligations.AspectRowsRequestTheirAspect : Prop :=
  Requests .aspectOff .off ∧ Requests .aspectGreen .green ∧ Requests .aspectFlashGreen .flashGreen ∧
    Requests .aspectYellow .yellow ∧ Requests .aspectFlashYellow .flashYellow ∧ Requests .aspectRed .red ∧
    Requests .aspectFlashRed .flashRed ∧ Requests .aspectLunar .lunar ∧
    ∀ code : Byte, Requests (.aspectInvalid08 code) .off ∧ Requests (.aspectInvalid10 code) .off ∧
      Requests (.aspectInvalid20 code) .off ∧ Requests (.aspectInvalid40 code) .off ∧
      Requests (.aspectInvalid80 code) .off

/-- 30 R72, 41 R124 (D4, D5): the option rows set both options of their channel, from the row's field and the
operand's bits. That a byte run alone acts on `cmdCh` is the model's reading (log entries 10 and 11). -/
def Obligations.OptionRowsSetBothOptions : Prop :=
  (∀ rest : BitVec 6,
    Configures (.optionPolCommonAnode rest) (rest.toNat % 8 = 1) (invertOf 2) ∧
    Configures (.optionPolCommonCathode rest) (rest.toNat % 8 = 1) (invertOf 1) ∧
    Configures (.optionPolFromSense rest) (rest.toNat % 8 = 1) (invertOf 0) ∧
    Configures (.optionPolInvalid rest) (rest.toNat % 8 = 1) (invertOf 3)) ∧
  (∀ hi : BitVec 5,
    Configures (.optionTopoThreeLamp hi) false (invertOf (hi.toNat / 8)) ∧
    Configures (.optionTopoSearchlight hi) true (invertOf (hi.toNat / 8))) ∧
  (∀ (hi : BitVec 5) (topo : BitVec 3),
    (WellFormed (.optionTopoInvalid2 hi topo) = true →
      Configures (.optionTopoInvalid2 hi topo) false (invertOf (hi.toNat / 8))) ∧
    (WellFormed (.optionTopoInvalid4 hi topo) = true →
      Configures (.optionTopoInvalid4 hi topo) false (invertOf (hi.toNat / 8))))

/-- 30 R72: an option byte has one POL row and one TOPO row, and either does what SET_OPTIONS with that byte does
to the channel (41 R124; log entry 11). -/
def Obligations.OptionSpellingsAgree : Prop :=
  ∀ (b : Byte) (s : State), ∃ i j : Instr,
    decode .optionPol b.toNat = .ok i ∧ decode .optionTopo b.toNat = .ok j ∧
      exec i s = exec (.setOptions s.cmdCh b) s ∧ exec j s = exec (.setOptions s.cmdCh b) s

/-! ### The step -/

/-- 43 R197 and the model's schedule (log entry 5): an operation word that is next and decodes runs as its
instruction, on the state with the word taken off. -/
def Obligations.StepRunsTheScheduledWord : Prop :=
  ∀ (s : State) (w : BitVec 24) (rest : List Item) (i : Instr),
    s.sched = .opWord w :: rest → decode .opWord w.toNat = .ok i →
      step s = exec i { s with sched := rest }

/-- The model's schedule (log entries 5, 10 and 11): a command byte or a table entry that is next and decodes runs
as its instruction, for its own channel. -/
def Obligations.StepRunsTheScheduledByteForItsChannel : Prop :=
  ∀ (s : State) (k : Ch) (b : Byte) (w : BitVec 16) (rest : List Item) (i : Instr),
    (s.sched = .aspectByte k b :: rest → decode .aspectByte b.toNat = .ok i →
      step s = exec i { s with sched := rest, cmdCh := k }) ∧
    (s.sched = .optionPol k b :: rest → decode .optionPol b.toNat = .ok i →
      step s = exec i { s with sched := rest, cmdCh := k }) ∧
    (s.sched = .optionTopo k b :: rest → decode .optionTopo b.toNat = .ok i →
      step s = exec i { s with sched := rest, cmdCh := k }) ∧
    (s.sched = .tableEntry k w :: rest → decode .tableEntry w.toNat = .ok i →
      step s = exec i { s with sched := rest, cmdCh := k })

/-- 43 R190 (D25; log entries 5 and 6): an agent's step is its operation, or the main loop's next unit, whether it
is placed in the schedule or, with nothing placed, freely chosen. -/
def Obligations.StepOfAnAgent : Prop :=
  ∀ (s u : State) (a : AgentStep),
    (s.sched = .agent a :: u.sched ∧ u = { s with sched := u.sched } ∨
      s.sched = [] ∧ Config.freeAgent s.choice = a ∧ u = { s with choice := s.choice + 1 }) →
    (a = .tick → step s = exec .tick u) ∧
    (∀ poll : Bool, a = .main poll → step s = .next (u.mainUnit poll)) ∧
    (∀ (r : Fin 24) (v : Byte), a = .hostWrite r v → r.val < 16 →
      step s = exec (.hostWrite (BitVec.ofNat 8 r.val) v) u) ∧
    (∀ (r : Fin 24) (v : Byte), a = .hostWrite r v → 16 ≤ r.val →
      step s = exec (.hostWriteUnread (BitVec.ofNat 8 r.val) v) u) ∧
    (∀ l : Bool, a = .hostBusy l → step s = exec (.hostBusy l) u) ∧
    (∀ v : Byte, a = .hostSense v → step s = exec (.hostSense v) u)

/-- 30 R77, R74: a word that decodes to nothing has no step, and the refusal says why (D17, D30). 30 R79: nor has a
word placed with a length other than 8, 16 or 24 bits, for which the decoder has no instruction (that it is refused is
the model's choice: log entry 11). -/
def Obligations.MalformedWordHasNoStep : Prop :=
  ∀ (s : State) (rest : List Item) (e : DecodeError),
    (∀ w : BitVec 24, s.sched = .opWord w :: rest → decode .opWord w.toNat = .error e →
      step s = .refused (.malformedWord e)) ∧
    (∀ (k : Ch) (w : BitVec 16), s.sched = .tableEntry k w :: rest → decode .tableEntry w.toNat = .error e →
      step s = .refused (.malformedWord e)) ∧
    ∀ nbits w : Nat, nbits ≠ 8 → nbits ≠ 16 → nbits ≠ 24 →
      decodeTableWord nbits w = none ∧ step (s.withFetchWord nbits w) = .refused (.malformedWord .wordLength)

/-! ### Reset (70_reset_and_hazards.md) -/

/-- 70 R230 (D15, D18, D19, D20, D22, D26, D35; the model's own fields by log entries 2, 5, 6, 9, 10 and 16): the
state after reset, whatever the OPEN parameters are. -/
def Obligations.StateAfterResetIsAsRuled : Prop :=
  (∀ k : Ch, State.reset.chan k = ⟨.off, .off, .off, 0, 0, 0, 0, false, true⟩) ∧
    (∀ (k : Ch) (c : Color), readLine State.reset k c = .error .unsetLine) ∧
    State.reset.updateFlag = false ∧ State.reset.pwmPhase = 0 ∧ State.reset.flasher = false ∧
    State.reset.flashCount = 0 ∧ State.reset.msAcc = 0 ∧ State.reset.msCount = 0 ∧
    State.reset.debState = Config.platform.initSenseByte ∧
    State.reset.clockA = 0 ∧ State.reset.clockB = 0 ∧
    (∀ a : Fin 24, State.reset.readReg a = Config.platform.regmapInit[a.val]) ∧
    State.reset.busBusy = Config.platform.initBusBusy ∧
    State.reset.senseRaw = Config.platform.initSenseRaw ∧
    State.reset.cfg.granularity = .perWrite ∧ State.reset.cfg.fade = Config.platform.fade ∧
    State.reset.cfg.red = Config.platform.red ∧ State.reset.cfg.gy = Config.platform.gy ∧
    State.reset.main = .serviceRead ∧ State.reset.sched = []

/-- 70 R230, R231 (D15, D18 to D20, D22, D26, D47): RESET writes every block-owned value and leaves the host's
state; the main loop starts over (log entry 16). -/
def Obligations.ResetWritesBlockStateOnly : Prop :=
  ∀ s : State, ∃ t : State, exec .reset s = .next t ∧
    (∀ k : Ch, t.chan k = ⟨.off, .off, .off, 0, 0, 0, 0, false, true⟩) ∧
    (∀ (k : Ch) (c : Color), readLine t k c = .error .unsetLine) ∧
    t.updateFlag = false ∧ t.pwmPhase = 0 ∧ t.flasher = false ∧ t.flashCount = 0 ∧ t.msAcc = 0 ∧
    t.msCount = 0 ∧ t.debState = s.cfg.initSenseByte ∧ t.clockA = 0 ∧ t.clockB = 0 ∧
    SameRegmap s t ∧ SameLevels s t ∧ t.cfg = s.cfg ∧ t.main = .serviceRead ∧ t.cmdCh = s.cmdCh ∧
    t.result = s.result ∧ t.sched = s.sched ∧ t.choice = s.choice

/-- The invariant holds after reset (10 R21 to R23, 40 R102, 60 R219, 70 R230), and the block is quiescent there
(43 R203). -/
def Obligations.StateAfterResetIsGood : Prop :=
  State.reset.Inv ∧ (∀ k : Ch, (State.reset.chan k).AtRest) ∧ State.reset.Quiescent

/-! ### The whole machine -/

/-- 10 R21, R23, 41 R149 (e), 60 R219, 40 R102: every step keeps every channel record in range (duties 0..31, base
aspects), the counters below their moduli, `clock_B` 0 and the register map canonical, also in the middle of an
ADVANCE. -/
def Obligations.EveryStepKeepsTheStateGood : Prop :=
  ∀ s t : State, s.Inv → step s = .next t → t.Inv

/-- 10 R21, R22: after every complete operation, `phase` is in 0..31 and is 0 at steady state. -/
def Obligations.EveryOperationLeavesChannelsAtRest : Prop :=
  ∀ (i : Instr) (s t : State), (∀ k : Ch, (s.chan k).AtRest) → exec i s = .next t →
    ∀ k : Ch, (t.chan k).AtRest

/-- 60 R210 for the operations of 30 R76; for the aspect bytes, the option bytes and the table entries, which the
model runs alone by its own choice, log entries 10, 11 and 12: every well-formed instruction answers a next state in
every state. 43 R191, R203: so does every agent's step, and every agent has one; the block never halts. -/
def Obligations.NoOperationTrapsFaultsOrStops : Prop :=
  (∀ (i : Instr) (s : State), WellFormed i = true → ∃ t : State, exec i s = .next t) ∧
  (∀ (a : AgentStep) (s : State), ∃ t : State, runAgent a s = .next t) ∧
  ∀ (g : Agent) (s : State), g.EnabledIn s

/-- 10 R33, 20 R64, 10 R36: no step writes a transition table or any other parameter (tables as parameters: D16;
log entry 1). -/
def Obligations.NoStepWritesTheTables : Prop :=
  ∀ s t : State, step s = .next t → t.cfg = s.cfg

/-- 20 R60, for the debouncer 10 R34, for the lines 10 R35, for the host's levels 10 R31 and R32, and 70 R231 for
RESET (a table entry run alone is a step of ADVANCE's walk, and a command byte one of POLL's updates: log entries 10
and 12; the returned value is kept by log entry 9): who writes what. -/
def Obligations.EachFieldHasItsWriters : Prop :=
  ∀ (i : Instr) (s t : State), exec i s = .next t → i ≠ .reset →
    ((∀ k f, i ≠ .advance k f) → i ≠ .service → (∀ d u r, i ≠ .tableEntry d u r) →
      ∀ k : Ch, (t.chan k).redDuty = (s.chan k).redDuty ∧ (t.chan k).yellowDuty = (s.chan k).yellowDuty ∧
        (t.chan k).greenDuty = (s.chan k).greenDuty ∧ (t.chan k).startAspect = (s.chan k).startAspect ∧
        (t.chan k).endAspect = (s.chan k).endAspect ∧ (t.chan k).phase = (s.chan k).phase) ∧
    ((∀ k b, i ≠ .setTarget k b) → (∀ k b, i ≠ .setOptions k b) → i ≠ .poll →
        formatOf i = .opWord ∨ formatOf i = .tableEntry →
      ∀ k : Ch, (t.chan k).nextAspect = (s.chan k).nextAspect ∧
        (t.chan k).optSearchlight = (s.chan k).optSearchlight ∧
        (t.chan k).optInvert = (s.chan k).optInvert) ∧
    (i ≠ .tick → t.pwmPhase = s.pwmPhase ∧ t.flasher = s.flasher ∧ t.flashCount = s.flashCount ∧
      t.msAcc = s.msAcc ∧ t.msCount = s.msCount) ∧
    (i ≠ .tick → i ≠ .service → t.updateFlag = s.updateFlag) ∧
    (i = .tick → s.updateFlag = true → t.updateFlag = true) ∧
    ((∀ a v, i ≠ .hostWrite a v) → (∀ a v, i ≠ .hostWriteUnread a v) → SameRegmap s t) ∧
    ((∀ v, i ≠ .debInit v) → (∀ v, i ≠ .debSample v) → i ≠ .poll → SameDebouncer s t) ∧
    ((∀ k p, i ≠ .drive k p) → i ≠ .tick → SameOutputs s t) ∧
    ((∀ l, i ≠ .hostBusy l) → t.busBusy = s.busBusy) ∧
    ((∀ v, i ≠ .hostSense v) → t.senseRaw = s.senseRaw) ∧
    ((∀ v, i ≠ .debSample v) → i ≠ .debState → t.result = s.result) ∧
    t.cfg = s.cfg

/-! ### SET_TARGET and SET_OPTIONS (41_signal_head.md) -/

/-- 41 R122: SET_TARGET's word, and its effect: purely a write of `next_aspect`. -/
def Obligations.SetTargetWritesNextAspect : Prop :=
  ∀ (k : Ch) (b : Byte) (s : State),
    decode .opWord (0x100000 + k.val * 0x100 + b.toNat) = .ok (.setTarget k b) ∧
    ∃ t : State, exec (.setTarget k b) s = .next t ∧
      t.chan k = { s.chan k with nextAspect := aspectOfCode b.toNat } ∧ OnlyChan k s t

/-- 41 R124, 30 R72 (D4, D5, D23): SET_OPTIONS decodes both fields, the polarity of POL `00` from the sense bit of
now. -/
def Obligations.SetOptionsDecodesTheByte : Prop :=
  ∀ (k : Ch) (b : Byte) (s : State), ∃ t : State, exec (.setOptions k b) s = .next t ∧
    t.chan k = { s.chan k with
      optSearchlight := decide (b.toNat % 8 = 1)
      optInvert := invertOf (b.toNat / 64) s } ∧
    OnlyChan k s t

/-! ### ADVANCE (41_signal_head.md) -/

/-- 41 R128, R129 (D9, D38): from steady state the aspect ADVANCE makes for is the effective target. Where that differs
from the steady aspect, the ADVANCE is that of the record with `phase` 0 and `end_aspect` the target: the call that
begins the transition consumes its first table entry. -/
def Obligations.AdvanceMakesForTheEffectiveTarget : Prop :=
  ∀ (s : State) (k : Ch) (f : Bool), (s.chan k).startAspect = (s.chan k).endAspect →
    let target := targetOf (s.chan k).nextAspect f
    ∃ t : State, exec (.advance k f) s = .next t ∧ OnlyChan k s t ∧ (t.chan k).endAspect = target ∧
      (target ≠ (s.chan k).endAspect →
        exec (.advance k f) (s.setChan k (begunTo (s.chan k) target)) = .next t)

/-- 41 R141: an ADVANCE that ends at steady state forces the duties from the steady aspect: 31 for the active
colour, 0 for the other two, all 0 for Off; and its last byte writes are the red, the yellow and the green duty. -/
def Obligations.SteadyStateForcesTheDuties : Prop :=
  ∀ (s : State) (k : Ch) (f : Bool), ∃ t : State, exec (.advance k f) s = .next t ∧
    ((t.chan k).startAspect = (t.chan k).endAspect →
      ((t.chan k).endAspect = .off →
        (t.chan k).redDuty = 0 ∧ (t.chan k).yellowDuty = 0 ∧ (t.chan k).greenDuty = 0) ∧
      ((t.chan k).endAspect = .red →
        (t.chan k).redDuty = 31 ∧ (t.chan k).yellowDuty = 0 ∧ (t.chan k).greenDuty = 0) ∧
      ((t.chan k).endAspect = .yellow →
        (t.chan k).redDuty = 0 ∧ (t.chan k).yellowDuty = 31 ∧ (t.chan k).greenDuty = 0) ∧
      ((t.chan k).endAspect = .green →
        (t.chan k).redDuty = 0 ∧ (t.chan k).yellowDuty = 0 ∧ (t.chan k).greenDuty = 31) ∧
      ∃ ws : List ChanWrite, (s.chan k).advanceWrites s.cfg f =
        ws ++ [.redDuty (t.chan k).redDuty, .yellowDuty (t.chan k).yellowDuty, .greenDuty (t.chan k).greenDuty])

/-- 41 R142, R149 (a) (D7, D8): a channel that is steady on Off or Lunar or moves between the two is dark. -/
def Obligations.LunarIsDark : Prop :=
  ∀ (s : State) (k : Ch) (f : Bool),
    ((s.chan k).startAspect = .off ∨ (s.chan k).startAspect = .lunar) →
    ((s.chan k).endAspect = .off ∨ (s.chan k).endAspect = .lunar) →
    ((s.chan k).startAspect = (s.chan k).endAspect →
      (s.chan k).nextAspect = .off ∨ (s.chan k).nextAspect = .lunar) →
    ∃ t : State, exec (.advance k f) s = .next t ∧
      (t.chan k).redDuty = 0 ∧ (t.chan k).yellowDuty = 0 ∧ (t.chan k).greenDuty = 0

/-- 41 R143: at steady state on the effective target ADVANCE changes nothing but wrong duties; on a settled channel
(43 R203) it changes nothing. -/
def Obligations.AdvanceIsIdempotentAtSteadyState : Prop :=
  ∀ (s : State) (k : Ch) (f : Bool), (s.chan k).startAspect = (s.chan k).endAspect → (s.chan k).phase = 0 →
    effective (s.chan k).nextAspect f = (s.chan k).endAspect →
    AdvancesTo s k f (steadyOn (s.chan k) (s.chan k).endAspect) ∧
      (f = s.flasher → s.Settled k → AdvancesTo s k f (s.chan k))

/-- 41 R146: changing `next_aspect` while a transition is in progress does not abort it and leaves no trace in the
ADVANCE (nor does the flasher bit, R149 (d)): the record after it differs in `next_aspect` only. -/
def Obligations.TransitionIgnoresTargetAndFlasher : Prop :=
  ∀ (s : State) (k : Ch) (f g : Bool) (a : Aspect), (s.chan k).startAspect ≠ (s.chan k).endAspect →
    ∃ t v : State, exec (.advance k f) s = .next t ∧
      exec (.advance k g) (s.setChan k { s.chan k with nextAspect := a }) = .next v ∧
      (t.chan k).endAspect = (s.chan k).endAspect ∧ v.chan k = { t.chan k with nextAspect := a }

/-- 41 R138: a phase at or past the end of the selected table ends the transition, also when the skip loop has run
to the end; it is never a fault. -/
def Obligations.PhasePastTheTableEndsTheTransition : Prop :=
  ∀ (s : State) (k : Ch) (f : Bool), (s.chan k).startAspect ≠ (s.chan k).endAspect →
    (tableLen (activeTable s.cfg (s.chan k)) ≤ (s.chan k).phase.toNat ∨
      (s.chan k).startAspect = .off ∧
        ∀ (q : Nat) (e : Entry), (s.chan k).phase.toNat ≤ q → tableGet (fadeTable s.cfg) q = some e → e.up = 0) →
    ∃ t : State, exec (.advance k f) s = .next t ∧ (t.chan k).startAspect = (s.chan k).endAspect ∧
      (t.chan k).endAspect = (s.chan k).endAspect ∧ (t.chan k).phase = 0 ∧ OnlyChan k s t

/-- 41 R132, R133 (D10, D11): the through-red step, searchlight between Green and Yellow: departure from `down`,
arrival from `up`, red from `red`; the last entry ends the transition. -/
def Obligations.ThroughRedStep : Prop :=
  ∀ (s : State) (k : Ch) (f : Bool) (e : Entry), (s.chan k).optSearchlight = true →
    tableGet s.cfg.gy (s.chan k).phase.toNat = some e →
    ((s.chan k).startAspect = .green → (s.chan k).endAspect = .yellow →
      AdvancesTo s k f
        (if (s.chan k).phase.toNat + 1 < tableLen s.cfg.gy then
          steppedTo (s.chan k) (s.chan k).phase (e.red.setWidth 8) (e.up.setWidth 8) (e.down.setWidth 8)
        else steadyOn (s.chan k) .yellow)) ∧
    ((s.chan k).startAspect = .yellow → (s.chan k).endAspect = .green →
      AdvancesTo s k f
        (if (s.chan k).phase.toNat + 1 < tableLen s.cfg.gy then
          steppedTo (s.chan k) (s.chan k).phase (e.red.setWidth 8) (e.down.setWidth 8) (e.up.setWidth 8)
        else steadyOn (s.chan k) .green))

/-- 41 R132, R134 (D8, D10, D11): the involving-red step, searchlight with Red at one end and no Off: all three
zeroed, departure from `down`, arrival from `up`; Lunar receives nothing. -/
def Obligations.InvolvingRedStep : Prop :=
  ∀ (s : State) (k : Ch) (f : Bool) (e : Entry), (s.chan k).optSearchlight = true →
    (s.chan k).startAspect ≠ (s.chan k).endAspect →
    isBase (s.chan k).startAspect → isBase (s.chan k).endAspect →
    (s.chan k).startAspect ≠ .off → (s.chan k).endAspect ≠ .off →
    ((s.chan k).startAspect = .red ∨ (s.chan k).endAspect = .red) →
    tableGet s.cfg.red (s.chan k).phase.toNat = some e →
    CrossStep s k f (tableLen s.cfg.red) (s.chan k).phase e

/-- 41 R132, R135, R136 (D8, D10, D11, D12): the fade step, for three-lamp heads, for any transition touching Off,
and for Lunar with Green or Yellow. Departing from Off it takes the first entry at or after `phase` whose up-phase
is not 0; else the entry at `phase`. -/
def Obligations.FadeStep : Prop :=
  ∀ (s : State) (k : Ch) (f : Bool) (q : Byte) (e : Entry),
    (s.chan k).startAspect ≠ (s.chan k).endAspect →
    isBase (s.chan k).startAspect → isBase (s.chan k).endAspect →
    ((s.chan k).optSearchlight = false ∨ (s.chan k).startAspect = .off ∨ (s.chan k).endAspect = .off ∨
      (s.chan k).startAspect = .lunar ∧ (s.chan k).endAspect ≠ .red ∨
      (s.chan k).endAspect = .lunar ∧ (s.chan k).startAspect ≠ .red) →
    (if (s.chan k).startAspect = .off then
      (s.chan k).phase.toNat ≤ q.toNat ∧ e.up ≠ 0 ∧
        ∀ (m : Nat) (x : Entry), (s.chan k).phase.toNat ≤ m → m < q.toNat →
          tableGet (fadeTable s.cfg) m = some x → x.up = 0
    else q = (s.chan k).phase) →
    ((s.chan k).endAspect = .off → e.down ≠ 0) →
    tableGet (fadeTable s.cfg) q.toNat = some e →
    CrossStep s k f 32 q e

/-- 41 R137 (D13): a fade arriving at Off ends at the first entry whose down-phase is 0. -/
def Obligations.FadeToOffEndsAtZeroDown : Prop :=
  ∀ (s : State) (k : Ch) (f : Bool) (e : Entry), (s.chan k).startAspect ≠ .off → (s.chan k).endAspect = .off →
    tableGet (fadeTable s.cfg) (s.chan k).phase.toNat = some e → e.down = 0 →
    AdvancesTo s k f (steadyOn (s.chan k) .off)

/-- 41 R144: a transition whose topology does not change ends within as many ADVANCEs as its table has entries,
whatever the flasher does, at the target that began it. -/
def Obligations.TransitionEndsWithinItsTable : Prop :=
  ∀ (s : State) (k : Ch) (fs : List Bool), (s.chan k).startAspect ≠ (s.chan k).endAspect →
    fs.length = tableLen (activeTable s.cfg (s.chan k)) →
    ∃ (n : Nat) (t : State), 1 ≤ n ∧ n ≤ fs.length ∧
      execAll ((fs.take n).map fun f => Instr.advance k f) s = .next t ∧
      (t.chan k).startAspect = (s.chan k).endAspect ∧ (t.chan k).endAspect = (s.chan k).endAspect ∧
      (t.chan k).phase = 0

/-- 41 R140, R143, R144 (D9, D10): from steady state, 32 ADVANCEs with the same effective target bring a channel to it
and leave it there with its steady duties, in either topology and for any tables. 41 R145: so a flashing request reaches its colour
with the flasher bit held at 1, and Off with it held at 0. -/
def Obligations.ChannelSettlesWithin32Advances : Prop :=
  ∀ (s : State) (k : Ch) (fs : List Bool) (a : Aspect), (s.chan k).startAspect = (s.chan k).endAspect →
    (s.chan k).phase = 0 → (∀ f ∈ fs, targetOf (s.chan k).nextAspect f = a) → fs.length = 32 →
    ∃ t : State, execAll (fs.map fun f => Instr.advance k f) s = .next t ∧
      t.chan k = steadyOn (s.chan k) a ∧ OnlyChan k s t

/-- 41 R135 (D11): a three-lamp transition between Green and Yellow never shows red. -/
def Obligations.ThreeLampGreenYellowNeverShowsRed : Prop :=
  ∀ (s : State) (k : Ch) (f : Bool), (s.chan k).optSearchlight = false →
    ((s.chan k).startAspect = .green ∧ (s.chan k).endAspect = .yellow ∨
      (s.chan k).startAspect = .yellow ∧ (s.chan k).endAspect = .green) →
    ∃ t : State, exec (.advance k f) s = .next t ∧ (t.chan k).redDuty = 0

/-- 41 R148, 20 R66 (D11, D25): the byte writes of an ADVANCE, done in their order, make the ADVANCE; they are the
writes of its units when nothing writes the record between them. Their order is written out for each walk, and for the
steady state, the beginning and the end of a transition (that each round of the skip loop is a write: log entry 13).
43 R197, R194: where the main loop begins the ADVANCE
of a channel, its next unit is under `per_write` the first unit of that ADVANCE with the flasher bit of now, and under
`per_channel` the whole ADVANCE; inside an ADVANCE its next unit does the one write that the reads of its record as it
is now lead to, or finds nothing more to write, and nothing else changes. 43 R193: the channels come in ascending order.
What an ADVANCE keeps between two units, the unit without a write, and a colourless endpoint in an interrupted
through-red walk are the model's choice (log entries 13 and 27). -/
def Obligations.ByteWritesMakeTheAdvance : Prop :=
  (∀ (s : State) (k : Ch) (f : Bool), ∃ t : State, exec (.advance k f) s = .next t ∧
    (s.chan k).writeAll ((s.chan k).advanceWrites s.cfg f) = t.chan k ∧
    (s.chan k).unitWrites s.cfg 64 ((s.chan k).beginUnit s.cfg f) = (s.chan k).advanceWrites s.cfg f) ∧
  (∀ (cfg : Config) (f : Bool) (r : Channel), SteadyWritesInOrder cfg f r ∧ ThroughRedWritesInOrder cfg f r ∧
    InvolvingRedWritesInOrder cfg f r ∧ FadeWritesInOrder cfg f r ∧ GuardWritesInOrder cfg f r) ∧
  (∀ (s : State) (k : Ch) (poll : Bool), s.main = .advance k →
    (s.cfg.granularity = .perWrite → ∃ t : State, runAgent (.main poll) s = .next t ∧
      s.DoesUnit k ((s.chan k).beginUnit s.cfg s.flasher) t) ∧
    (s.cfg.granularity = .perChannel → ∃ t : State, exec (.advance k s.flasher) s = .next t ∧
      runAgent (.main poll) s = .next { t with main := afterAdvance k })) ∧
  (∀ (s : State) (k : Ch) (p : AdvancePoint) (poll : Bool), s.main = .writing k p →
    ∃ t : State, runAgent (.main poll) s = .next t ∧ s.DoesUnit k ((s.chan k).unitAt s.cfg p) t) ∧
  (∀ k j : Ch, afterAdvance k = .advance j ↔ j.val = k.val + 1) ∧ afterAdvance 7 = .serviceDone

/-- 70 R237, 93 X11, 41 R131 (the order of the writes: D11): what a TICK between two byte writes of an ADVANCE can
read of a duty byte. An ADVANCE that does not end its transition shows the old value, 0 or the new one. One that ends
at steady state shows the old value, 0, the steady one, or the one that the table's last entry gives. -/
def Obligations.InterruptedAdvanceShowsOldZeroOrNew : Prop :=
  ∀ (s : State) (k : Ch) (f : Bool) (n : Nat) (c : Color), isBase (s.chan k).startAspect →
    isBase (s.chan k).endAspect → ∃ t : State, exec (.advance k f) s = .next t ∧
    let seen := (s.chan k).writeAll (((s.chan k).advanceWrites s.cfg f).take n)
    let begun := (s.chan k).begin (effective (s.chan k).nextAspect f)
    let table := activeTable s.cfg begun
    ((t.chan k).startAspect ≠ (t.chan k).endAspect →
      seen.duty c = (s.chan k).duty c ∨ seen.duty c = 0 ∨ seen.duty c = (t.chan k).duty c) ∧
    ((t.chan k).startAspect = (t.chan k).endAspect →
      seen.duty c = (s.chan k).duty c ∨ seen.duty c = 0 ∨ seen.duty c = steadyDuty (t.chan k).endAspect c ∨
        begun.startAspect ≠ begun.endAspect ∧
          ∃ e : Entry, tableGet table (tableLen table - 1) = some e ∧ seen.duty c = entryDuty begun e c)

/-! ### A table entry run alone (30 R74; 41 R131; log entry 12) -/

/-- TABLE_ENTRY and what it drives (30 R74; 41 R133 to R138), with the channel in a transition at any phase: past the
table's end the transition ends and the duties stay (R138); from Off a zero up-phase is passed over (R136); arriving at
Off a zero down-phase ends the transition (R137); else the entry's duties by the walk of the transition, and the entry
is passed. An exhausted table ends the transition. The reading that an entry run alone is a walk step is the model's
(log entry 12). -/
def Obligations.TableEntryDrivesOneWalkStep : Prop :=
  ∀ (s : State) (e : Entry), (s.chan s.cmdCh).startAspect ≠ (s.chan s.cmdCh).endAspect →
    let r := s.chan s.cmdCh
    let len := tableLen (activeTable s.cfg r)
    ∃ t : State, exec (.tableEntry e.down e.up e.red) s = .next t ∧ OnlyChan s.cmdCh s t ∧
      t.chan s.cmdCh =
        if len ≤ r.phase.toNat then ended r
        else if r.route = .fade ∧ r.startAspect = .off ∧ e.up = 0 then passed len r
        else if r.route = .fade ∧ r.endAspect = .off ∧ e.down = 0 then ended r
        else passed len { r with
          redDuty := entryDuty r e .red
          yellowDuty := entryDuty r e .yellow
          greenDuty := entryDuty r e .green }

/-- 41 R131 (D10; log entry 12): the entry at `phase`, run alone where the skip loop does not pass over it, leaves
the channel as ADVANCE does but for the steady duties of a transition it ends; at steady state no entry does
anything (41 R130). -/
def Obligations.TableEntryAgreesWithAdvance : Prop :=
  ∀ (s : State) (e : Entry) (f : Bool),
    ((s.chan s.cmdCh).startAspect = (s.chan s.cmdCh).endAspect →
      ∃ t : State, exec (.tableEntry e.down e.up e.red) s = .next t ∧ SameChans s t) ∧
    ((s.chan s.cmdCh).startAspect ≠ (s.chan s.cmdCh).endAspect →
      tableGet (activeTable s.cfg (s.chan s.cmdCh)) (s.chan s.cmdCh).phase.toNat = some e →
      ((s.chan s.cmdCh).startAspect = .off → e.up ≠ 0) →
      ∃ t u : State, exec (.tableEntry e.down e.up e.red) s = .next t ∧
        exec (.advance s.cmdCh f) s = .next u ∧
        u.chan s.cmdCh =
          if (t.chan s.cmdCh).startAspect = (t.chan s.cmdCh).endAspect then
            steadyOn (s.chan s.cmdCh) (s.chan s.cmdCh).endAspect
          else t.chan s.cmdCh)

/-! ### The PWM output stage (42_pwm_output.md) -/

/-- 42 R170, R172 (D42, D45): DRIVE sets the channel's three lines to `(duty > p) != invert` and nothing else. -/
def Obligations.DriveSetsTheThreeLines : Prop :=
  ∀ (s : State) (k : Ch) (p : BitVec 5), ∃ t : State, exec (.drive k p) s = .next t ∧
    (∀ c : Color, readLine t k c =
      .ok (decide ((s.chan k).duty c > p.setWidth 8) != (s.chan k).optInvert)) ∧
    (∀ j : Ch, j ≠ k → t.out.get j = s.out.get j) ∧
    SameChans s t ∧ SameTimers s t ∧ SameDebouncer s t ∧ SameRegmap s t ∧ SameLevels s t ∧
    SameModel s t ∧ t.result = s.result

/-- 42 R171: over the 32 phases a colour has exactly `duty` lit phases, the first ones, in either polarity: the line
is low in a lit phase exactly when `invert` is true. -/
def Obligations.DutyIsTheNumberOfLitPhases : Prop :=
  ∀ (s : State) (k : Ch) (c : Color), ((s.chan k).duty c).toNat ≤ 31 →
    ((List.range 32).filter fun p =>
        levelAfterDrive s k (BitVec.ofNat 5 p) c = some (!(s.chan k).optInvert)) =
      List.range ((s.chan k).duty c).toNat

/-- 42 R173 to R177 (D18, D19, D20, D42): TICK drives all 24 lines with the phase before the increment, then
advances the phase counter, sets the wrap flag on a wrap, and advances the millisecond counter and the flasher. -/
def Obligations.TickDrivesThenCounts : Prop :=
  ∀ s : State, ∃ t : State, exec .tick s = .next t ∧
    (∀ (k : Ch) (c : Color), readLine t k c =
      .ok (decide ((s.chan k).duty c > s.pwmPhase.setWidth 8) != (s.chan k).optInvert)) ∧
    t.pwmPhase.toNat = (s.pwmPhase.toNat + 1) % 32 ∧
    t.updateFlag = (s.updateFlag || decide (s.pwmPhase.toNat = 31)) ∧
    (if s.msAcc + 1 = (s.cfg.ticksPerMs : Nat) then
      t.msAcc = 0 ∧ t.msCount.toNat = (s.msCount.toNat + 1) % 4294967296
    else t.msAcc = s.msAcc + 1 ∧ t.msCount = s.msCount) ∧
    (if s.flashCount + 1 = (s.cfg.flashToggleTicks : Nat) then
      t.flashCount = 0 ∧ t.flasher = !s.flasher
    else t.flashCount = s.flashCount + 1 ∧ t.flasher = s.flasher) ∧
    SameChans s t ∧ SameDebouncer s t ∧ SameRegmap s t ∧ SameLevels s t ∧ SameModel s t ∧ t.result = s.result

/-- 42 R175, R176, R177, 60 R219 (D18, D19, D20): the counters after `n` ticks: the phase counter runs mod 32 and
the flag is set once 32 is passed, the millisecond counter and the flasher run at their moduli. 43 R203, R191: so on
every run that is weakly fair to the tick agent and the main loop the wrap flag is set again and again. -/
def Obligations.CountersAfterTicks : Prop :=
  (∀ (s : State) (n : Nat), s.msAcc < s.cfg.ticksPerMs → s.flashCount < s.cfg.flashToggleTicks →
    ∃ t : State, execAll (List.replicate n Instr.tick) s = .next t ∧
      t.pwmPhase.toNat = (s.pwmPhase.toNat + n) % 32 ∧
      t.updateFlag = (s.updateFlag || decide (32 ≤ s.pwmPhase.toNat + n)) ∧
      t.msAcc = (s.msAcc + n) % s.cfg.ticksPerMs ∧
      t.msCount.toNat = (s.msCount.toNat + (s.msAcc + n) / s.cfg.ticksPerMs) % 4294967296 ∧
      t.flashCount = (s.flashCount + n) % s.cfg.flashToggleTicks ∧
      t.flasher = (s.flasher ^^ decide ((s.flashCount + n) / s.cfg.flashToggleTicks % 2 = 1))) ∧
  (∀ (σ : Nat → State) (α : Nat → AgentStep), IsFairRun σ α →
    ∀ n : Nat, ∃ m : Nat, n ≤ m ∧ (σ m).updateFlag = true)

/-! ### The debouncer (40_debounce.md) -/

/-- 40 R101: DEB_INIT's word, and its effect. -/
def Obligations.DebInitSetsTheFilter : Prop :=
  ∀ (v : Byte) (s : State), decode .opWord (0x700000 + v.toNat) = .ok (.debInit v) ∧
    ∃ t : State, exec (.debInit v) s = .next t ∧
      t.debState = v ∧ t.clockA = 0 ∧ t.clockB = 0 ∧ OnlyDebouncer s t ∧ t.result = s.result

/-- 40 R102 (D21): DEB_SAMPLE lane by lane: a lane that agrees clears its count, a lane that differs flips when it
differed in the call before, else it counts; the returned byte has the lanes that flipped. -/
def Obligations.DebSampleActsLaneByLane : Prop :=
  ∀ (raw : Byte) (s : State), s.clockB = 0 → ∃ t : State, exec (.debSample raw) s = .next t ∧
    OnlyDebouncer s t ∧ t.clockB = 0 ∧
    ∀ i : Fin 8,
      (raw.getLsbD i = s.debState.getLsbD i →
        t.debState.getLsbD i = s.debState.getLsbD i ∧ t.clockA.getLsbD i = false ∧
          t.result.getLsbD i = false) ∧
      (raw.getLsbD i ≠ s.debState.getLsbD i → s.clockA.getLsbD i = true →
        t.debState.getLsbD i = !(s.debState.getLsbD i) ∧ t.clockA.getLsbD i = false ∧
          t.result.getLsbD i = true) ∧
      (raw.getLsbD i ≠ s.debState.getLsbD i → s.clockA.getLsbD i = false →
        t.debState.getLsbD i = s.debState.getLsbD i ∧ t.clockA.getLsbD i = true ∧
          t.result.getLsbD i = false)

/-- 40 R102 (D21): the bitwise form of DEB_SAMPLE that the rule gives as equal to the per-lane one. -/
def Obligations.DebSampleHasTheBitwiseForm : Prop :=
  ∀ (raw : Byte) (s : State), s.clockB = 0 → ∃ t : State, exec (.debSample raw) s = .next t ∧
    t.result = (raw ^^^ s.debState) &&& s.clockA ∧
    t.debState = s.debState ^^^ ((raw ^^^ s.debState) &&& s.clockA) ∧
    t.clockA = (raw ^^^ s.debState) &&& ~~~ s.clockA ∧ t.clockB = 0

/-- 40 R105: from zero counts a one-call glitch of a lane changes nothing, and a change held for two calls flips the
lane on the second. -/
def Obligations.GlitchIsAbsorbedAndHeldChangeFlips : Prop :=
  ∀ (s : State) (first second : Byte) (i : Fin 8), s.clockA = 0 → s.clockB = 0 →
    first.getLsbD i ≠ s.debState.getLsbD i → ∃ t u : State,
      exec (.debSample first) s = .next t ∧ exec (.debSample second) t = .next u ∧
      t.debState.getLsbD i = s.debState.getLsbD i ∧ t.result.getLsbD i = false ∧
      (second.getLsbD i = s.debState.getLsbD i →
        u.debState.getLsbD i = s.debState.getLsbD i ∧ u.clockA.getLsbD i = false ∧
          u.result.getLsbD i = false) ∧
      (second.getLsbD i ≠ s.debState.getLsbD i →
        u.debState.getLsbD i = !(s.debState.getLsbD i) ∧ u.clockA.getLsbD i = false ∧
          u.result.getLsbD i = true)

/-- 40 R103: DEB_STATE's word, and its effect: it returns the debounced byte and has no side effect. -/
def Obligations.DebStateReturnsTheStableByte : Prop :=
  ∀ s : State, decode .opWord 0x900000 = .ok .debState ∧
    ∃ t : State, exec .debState s = .next t ∧ t.result = s.debState ∧ SameDebouncer s t ∧ OnlyDebouncer s t

/-! ### Scheduling (43_scheduling.md) -/

/-- 43 R193, R194 (D27): SERVICE does nothing without the flag; with it, it clears the flag and does to each channel
what ADVANCE with the flasher does. -/
def Obligations.ServiceAdvancesEveryChannelOnce : Prop :=
  ∀ s : State, ∃ t : State, exec .service s = .next t ∧
    (s.updateFlag = false → t = s) ∧
    (s.updateFlag = true → t.updateFlag = false ∧
      ∀ k : Ch, ∃ u : State, exec (.advance k s.flasher) s = .next u ∧ t.chan k = u.chan k) ∧
    t.pwmPhase = s.pwmPhase ∧ t.flasher = s.flasher ∧ t.flashCount = s.flashCount ∧ t.msAcc = s.msAcc ∧
    t.msCount = s.msCount ∧ SameDebouncer s t ∧ SameRegmap s t ∧ SameLevels s t ∧ SameOutputs s t ∧
    SameModel s t ∧ t.result = s.result

/-- 43 R195 (D2, D23, D39, D40, D43): POLL samples the sense byte; when the bus is idle it then does to each channel
what SET_TARGET and SET_OPTIONS with its two register-map bytes do, with the sense bit just debounced; when the bus
is busy, nothing more. -/
def Obligations.PollTakesTheRegisterMapWhenIdle : Prop :=
  ∀ s : State, ∃ t d : State, exec .poll s = .next t ∧ exec (.debSample s.senseRaw) s = .next d ∧
    SameDebouncer d t ∧ t.result = s.result ∧
    (s.busBusy = true → SameChans s t) ∧
    (s.busBusy = false → ∀ k : Ch,
      t.chan k = { s.chan k with
        nextAspect := aspectOfCode (s.readReg ⟨k.val, by omega⟩).toNat
        optSearchlight := decide ((s.readReg ⟨8 + k.val, by omega⟩).toNat % 8 = 1)
        optInvert := invertOf ((s.readReg ⟨8 + k.val, by omega⟩).toNat / 64) d }) ∧
    SameTimers s t ∧ SameRegmap s t ∧ SameLevels s t ∧ SameOutputs s t ∧ SameModel s t

/-- 43 R193, R197 (D25, D27): the main-loop agent's SERVICE, run unit by unit with nothing between, makes the
stand-alone SERVICE, at either granularity. Its unit S1 only reads the wrap flag, and S2 only clears it, from every
state that stands there; after a SERVICE that goes on to no POLL the next unit is the next pass's S1 (43 R192; log entry
22). -/
def Obligations.ServiceUnitsMakeTheService : Prop :=
  (∀ s : State, s.main = .serviceRead → ∃ (n : Nat) (t : State), exec .service s = .next t ∧
    runSteps n (withMainUnits false n s) = .next { t with main := .serviceDone }) ∧
  (∀ s : State, s.main = .serviceRead →
    UnitLeadsTo s { s with main := if s.updateFlag then .serviceClear else .serviceDone }) ∧
  (∀ s : State, s.main = .serviceDone →
    runAgent (.main false) s = .next { s with main := if s.updateFlag then .serviceClear else .serviceDone }) ∧
  (∀ s : State, s.main = .serviceClear → UnitLeadsTo s { s with updateFlag := false, main := .advance 0 })

/-- 43 R195, R197, 20 R61 (D23, D25, D39, D40, D43): the main-loop agent's POLL, run unit by unit with nothing between,
makes the stand-alone POLL: 34 units when the bus is idle, 2 when it is busy. And from every state that stands there,
whatever came between: P1 samples the sense byte and keeps no result; P2 tests the bus; a read takes one register-map
byte as it is now and changes nothing else; SET_TARGET and SET_OPTIONS take the byte that was read, not the map's byte
of now; the channels come in ascending order. -/
def Obligations.PollUnitsMakeThePoll : Prop :=
  (∀ s : State, s.main = .serviceDone → ∃ t : State, exec .poll s = .next t ∧
    runSteps (if s.busBusy then 2 else 34) (withMainUnits true (if s.busBusy then 2 else 34) s) =
      .next { t with main := .serviceRead }) ∧
  (∀ s : State, s.main = .serviceDone → ∃ t : State, exec (.debSample s.senseRaw) s = .next t ∧
    runAgent (.main true) s = .next { t with main := .pollBusy, result := s.result }) ∧
  (∀ s : State, s.main = .pollBusy →
    UnitLeadsTo s { s with main := if s.busBusy then .serviceRead else .pollAspect 0 }) ∧
  (∀ (s : State) (k : Ch), s.main = .pollAspect k →
    UnitLeadsTo s { s with main := .pollOption k (s.readReg ⟨k.val, by omega⟩) }) ∧
  (∀ (s : State) (k : Ch) (a : Byte), s.main = .pollOption k a →
    UnitLeadsTo s { s with main := .pollTarget k a (s.readReg ⟨8 + k.val, by omega⟩) }) ∧
  (∀ (s : State) (k : Ch) (a o : Byte), s.main = .pollTarget k a o →
    UnitDoes s (.setTarget k a) (.pollSetOptions k o)) ∧
  (∀ (s : State) (k : Ch) (o : Byte), s.main = .pollSetOptions k o →
    UnitDoes s (.setOptions k o) (if h : k.val + 1 < 8 then .pollAspect ⟨k.val + 1, h⟩ else .serviceRead))

/-- 43 R193, 20 R63, 70 R239 (D27): a wrap between the reading and the clearing of the flag is lost: whatever ticks
run between S1 and S2, S2 clears the flag and the SERVICE goes on. -/
def Obligations.WrapBeforeClearIsLost : Prop :=
  ∀ (s : State) (n : Nat), s.main = .serviceRead → s.updateFlag = true →
    ∃ t u v : State, runSteps 1 (withMainUnits false 1 s) = .next t ∧
      execAll (List.replicate n Instr.tick) t = .next u ∧ u.updateFlag = true ∧
      runSteps 1 (withMainUnits false 1 u) = .next v ∧ v.updateFlag = false ∧ v.main = .advance 0 ∧
      SameChans s v

/-! ### The host (43_scheduling.md §3) -/

/-- 43 R199 (D46), 20 R57: HOST_WRITE writes one byte of the register map, in both of its rows, and nothing else (the premise
is part of the invariant of every step). -/
def Obligations.HostWriteWritesOneByte : Prop :=
  ∀ (a v : Byte) (s : State) (h : a.toNat < 24), Memory.wf s.cfg s.regmap = true →
    let i := if a.toNat < 16 then Instr.hostWrite a v else Instr.hostWriteUnread a v
    decode .opWord (0xA00000 + a.toNat * 0x100 + v.toNat) = .ok i ∧
    ∃ t : State, exec i s = .next t ∧
      t.readReg ⟨a.toNat, h⟩ = v ∧ (∀ b : Fin 24, b.val ≠ a.toNat → t.readReg b = s.readReg b) ∧
      SameChans s t ∧ SameTimers s t ∧ SameDebouncer s t ∧ SameLevels s t ∧ SameOutputs s t ∧
      SameModel s t ∧ t.result = s.result

/-- The model's boundary (20 R50; log entry 21): an address outside the register map, which only an ill-formed
instruction holds, faults. -/
def Obligations.HostWriteOutsideTheMapFaults : Prop :=
  ∀ (a v : Byte) (s : State), 24 ≤ a.toNat →
    exec (.hostWrite a v) s = .fault .noSuchRegister ∧ exec (.hostWriteUnread a v) s = .fault .noSuchRegister

/-- 43 R200: HOST_BUSY's word, and its effect. -/
def Obligations.HostBusySetsTheLevel : Prop :=
  ∀ (l : Bool) (s : State), decode .opWord (0xB00000 + l.toNat) = .ok (.hostBusy l) ∧
    ∃ t : State, exec (.hostBusy l) s = .next t ∧ t.busBusy = l ∧ t.senseRaw = s.senseRaw ∧
      SameChans s t ∧ SameTimers s t ∧ SameDebouncer s t ∧ SameRegmap s t ∧ SameOutputs s t ∧
      SameModel s t ∧ t.result = s.result

/-- 43 R201: HOST_SENSE's word, its effect, and that a change reaches the debounced bit only when a second
consecutive POLL sees it. -/
def Obligations.HostSenseReachesTheFilterInTwoPolls : Prop :=
  ∀ (v : Byte) (s : State), decode .opWord (0xC00000 + v.toNat) = .ok (.hostSense v) ∧
    ∃ t : State, exec (.hostSense v) s = .next t ∧ t.senseRaw = v ∧ t.busBusy = s.busBusy ∧
      SameChans s t ∧ SameTimers s t ∧ SameDebouncer s t ∧ SameRegmap s t ∧ SameOutputs s t ∧
      SameModel s t ∧ t.result = s.result ∧
      (s.clockA = 0 → s.clockB = 0 → ∃ p q : State, exec .poll t = .next p ∧ exec .poll p = .next q ∧
        p.debState = s.debState ∧ q.debState = v)

/-- 43 R199, 20 R51 (D3, D39): no operation but an idle POLL depends on the register map, and an idle POLL depends on
bytes 0 to 15 only: two states that differ in the register map, for a POLL in bytes 16 to 23, go to states that
differ in the register map only. -/
def Obligations.OnlyPollReadsTheRegisterMap : Prop :=
  ∀ (i : Instr) (s t : State) (m : List Host.Cell),
    (∀ a v, i ≠ .hostWrite a v) → (∀ a v, i ≠ .hostWriteUnread a v) →
    (i = .poll → s.busBusy = false → ∀ a : Fin 24, a.val < 16 → { s with regmap := m }.readReg a = s.readReg a) →
    exec i s = .next t → exec i { s with regmap := m } = .next { t with regmap := m }

/-- 60 R212 (c), 10 R35, 42 R173 (D26): a line that is unset faults when read; after a TICK none is unset, and none
becomes unset again but by RESET. -/
def Obligations.LinesAreUnsetUntilDriven : Prop :=
  (∀ (s : State) (k : Ch) (c : Color), (s.out.get k).line c = none → readLine s k c = .error .unsetLine) ∧
  (∀ (s t : State), exec .tick s = .next t → ∀ (k : Ch) (c : Color), ∃ b : Bool, readLine t k c = .ok b) ∧
  (∀ (i : Instr) (s t : State) (k : Ch) (c : Color), i ≠ .reset → exec i s = .next t →
    (∃ b : Bool, readLine s k c = .ok b) → ∃ b : Bool, readLine t k c = .ok b)

/-- 00 R9 (D44): the model accepts a table of typed records exactly when it is well formed, and holds its records
then. -/
def Obligations.TableAcceptedExactlyWhenWellFormed : Prop :=
  ∀ rows : List (Byte × Byte × Byte),
    ((acceptTable rows).isSome = true ↔
      1 ≤ rows.length ∧ rows.length ≤ 32 ∧
        ∀ e ∈ rows, e.1.toNat ≤ 31 ∧ e.2.1.toNat ≤ 31 ∧ e.2.2.toNat ≤ 31) ∧
    ((acceptFade rows).isSome = true ↔
      rows.length = 32 ∧ ∀ e ∈ rows, e.1.toNat ≤ 31 ∧ e.2.1.toNat ≤ 31 ∧ e.2.2.toNat ≤ 31) ∧
    (∀ t : Table, acceptTable rows = some t → tableLen t = rows.length ∧
      ∀ n : Nat, (tableGet t n).map (fun e => (e.down.toNat, e.up.toNat, e.red.toNat)) =
        rows[n]?.map fun e => (e.1.toNat, e.2.1.toNat, e.2.2.toNat)) ∧
    ∀ v : Vector Entry 32, acceptFade rows = some v →
      ∀ n : Nat, v[n]?.map (fun e => (e.down.toNat, e.up.toNat, e.red.toNat)) =
        rows[n]?.map fun e => (e.1.toNat, e.2.1.toNat, e.2.2.toNat)
end

