-- ==== Sys2Proof/Laws/Bank.lean ====
section
/-! SUPPORT. Reading a bank after writing one member or filling it. -/

namespace Sys2Proof

@[simp] theorem Bank.get_set_same {α : Type} (b : Bank α) (k : Ch) (x : α) : (b.set k x).get k = x := by
  fin_cases k <;> rfl

@[simp] theorem Bank.get_set_ne {α : Type} (b : Bank α) {j k : Ch} (x : α) (h : j ≠ k) :
    (b.set k x).get j = b.get j := by
  fin_cases k <;> fin_cases j <;> first | rfl | exact absurd rfl h

@[simp] theorem Bank.get_ofFn {α : Type} (f : Ch → α) (k : Ch) : (Bank.ofFn f).get k = f k := by
  fin_cases k <;> rfl

/-- Two banks that agree on every channel are one. -/
theorem Bank.ext_get {α : Type} {a b : Bank α} (h : ∀ k : Ch, a.get k = b.get k) : a = b := by
  obtain ⟨a0, a1, a2, a3, a4, a5, a6, a7⟩ := a
  obtain ⟨b0, b1, b2, b3, b4, b5, b6, b7⟩ := b
  have h0 := h 0; have h1 := h 1; have h2 := h 2; have h3 := h 3
  have h4 := h 4; have h5 := h 5; have h6 := h 6; have h7 := h 7
  simp only [Bank.get] at h0 h1 h2 h3 h4 h5 h6 h7
  subst h0 h1 h2 h3 h4 h5 h6 h7
  rfl

end Sys2Proof
end

