-- ==== Sys2Proof/Laws/State.lean ====
section
/-! SUPPORT. The state's fields under each named update: one lemma per field that the update leaves alone. -/

namespace Sys2Proof.Machine

/-! ### setChan -/

@[simp] theorem State.setChan_cfg (s : State) (k : Ch) (c : Channel) :
    (s.setChan k c).cfg = s.cfg := rfl
@[simp] theorem State.setChan_updateFlag (s : State) (k : Ch) (c : Channel) :
    (s.setChan k c).updateFlag = s.updateFlag := rfl
@[simp] theorem State.setChan_pwmPhase (s : State) (k : Ch) (c : Channel) :
    (s.setChan k c).pwmPhase = s.pwmPhase := rfl
@[simp] theorem State.setChan_flasher (s : State) (k : Ch) (c : Channel) :
    (s.setChan k c).flasher = s.flasher := rfl
@[simp] theorem State.setChan_flashCount (s : State) (k : Ch) (c : Channel) :
    (s.setChan k c).flashCount = s.flashCount := rfl
@[simp] theorem State.setChan_msAcc (s : State) (k : Ch) (c : Channel) :
    (s.setChan k c).msAcc = s.msAcc := rfl
@[simp] theorem State.setChan_msCount (s : State) (k : Ch) (c : Channel) :
    (s.setChan k c).msCount = s.msCount := rfl
@[simp] theorem State.setChan_regmap (s : State) (k : Ch) (c : Channel) :
    (s.setChan k c).regmap = s.regmap := rfl
@[simp] theorem State.setChan_busBusy (s : State) (k : Ch) (c : Channel) :
    (s.setChan k c).busBusy = s.busBusy := rfl
@[simp] theorem State.setChan_senseRaw (s : State) (k : Ch) (c : Channel) :
    (s.setChan k c).senseRaw = s.senseRaw := rfl
@[simp] theorem State.setChan_debState (s : State) (k : Ch) (c : Channel) :
    (s.setChan k c).debState = s.debState := rfl
@[simp] theorem State.setChan_clockA (s : State) (k : Ch) (c : Channel) :
    (s.setChan k c).clockA = s.clockA := rfl
@[simp] theorem State.setChan_clockB (s : State) (k : Ch) (c : Channel) :
    (s.setChan k c).clockB = s.clockB := rfl
@[simp] theorem State.setChan_out (s : State) (k : Ch) (c : Channel) :
    (s.setChan k c).out = s.out := rfl
@[simp] theorem State.setChan_main (s : State) (k : Ch) (c : Channel) :
    (s.setChan k c).main = s.main := rfl
@[simp] theorem State.setChan_cmdCh (s : State) (k : Ch) (c : Channel) :
    (s.setChan k c).cmdCh = s.cmdCh := rfl
@[simp] theorem State.setChan_result (s : State) (k : Ch) (c : Channel) :
    (s.setChan k c).result = s.result := rfl
@[simp] theorem State.setChan_sched (s : State) (k : Ch) (c : Channel) :
    (s.setChan k c).sched = s.sched := rfl
@[simp] theorem State.setChan_choice (s : State) (k : Ch) (c : Channel) :
    (s.setChan k c).choice = s.choice := rfl

/-! ### writeReg -/

@[simp] theorem State.writeReg_cfg (s : State) (a : Fin 24) (v : Byte) :
    (s.writeReg a v).cfg = s.cfg := rfl
@[simp] theorem State.writeReg_chans (s : State) (a : Fin 24) (v : Byte) :
    (s.writeReg a v).chans = s.chans := rfl
@[simp] theorem State.writeReg_updateFlag (s : State) (a : Fin 24) (v : Byte) :
    (s.writeReg a v).updateFlag = s.updateFlag := rfl
@[simp] theorem State.writeReg_pwmPhase (s : State) (a : Fin 24) (v : Byte) :
    (s.writeReg a v).pwmPhase = s.pwmPhase := rfl
@[simp] theorem State.writeReg_flasher (s : State) (a : Fin 24) (v : Byte) :
    (s.writeReg a v).flasher = s.flasher := rfl
@[simp] theorem State.writeReg_flashCount (s : State) (a : Fin 24) (v : Byte) :
    (s.writeReg a v).flashCount = s.flashCount := rfl
@[simp] theorem State.writeReg_msAcc (s : State) (a : Fin 24) (v : Byte) :
    (s.writeReg a v).msAcc = s.msAcc := rfl
@[simp] theorem State.writeReg_msCount (s : State) (a : Fin 24) (v : Byte) :
    (s.writeReg a v).msCount = s.msCount := rfl
@[simp] theorem State.writeReg_busBusy (s : State) (a : Fin 24) (v : Byte) :
    (s.writeReg a v).busBusy = s.busBusy := rfl
@[simp] theorem State.writeReg_senseRaw (s : State) (a : Fin 24) (v : Byte) :
    (s.writeReg a v).senseRaw = s.senseRaw := rfl
@[simp] theorem State.writeReg_debState (s : State) (a : Fin 24) (v : Byte) :
    (s.writeReg a v).debState = s.debState := rfl
@[simp] theorem State.writeReg_clockA (s : State) (a : Fin 24) (v : Byte) :
    (s.writeReg a v).clockA = s.clockA := rfl
@[simp] theorem State.writeReg_clockB (s : State) (a : Fin 24) (v : Byte) :
    (s.writeReg a v).clockB = s.clockB := rfl
@[simp] theorem State.writeReg_out (s : State) (a : Fin 24) (v : Byte) :
    (s.writeReg a v).out = s.out := rfl
@[simp] theorem State.writeReg_main (s : State) (a : Fin 24) (v : Byte) :
    (s.writeReg a v).main = s.main := rfl
@[simp] theorem State.writeReg_cmdCh (s : State) (a : Fin 24) (v : Byte) :
    (s.writeReg a v).cmdCh = s.cmdCh := rfl
@[simp] theorem State.writeReg_result (s : State) (a : Fin 24) (v : Byte) :
    (s.writeReg a v).result = s.result := rfl
@[simp] theorem State.writeReg_sched (s : State) (a : Fin 24) (v : Byte) :
    (s.writeReg a v).sched = s.sched := rfl
@[simp] theorem State.writeReg_choice (s : State) (a : Fin 24) (v : Byte) :
    (s.writeReg a v).choice = s.choice := rfl

/-! ### drive -/

@[simp] theorem State.drive_cfg (s : State) (k : Ch) (p : BitVec 5) :
    (s.drive k p).cfg = s.cfg := rfl
@[simp] theorem State.drive_chans (s : State) (k : Ch) (p : BitVec 5) :
    (s.drive k p).chans = s.chans := rfl
@[simp] theorem State.drive_updateFlag (s : State) (k : Ch) (p : BitVec 5) :
    (s.drive k p).updateFlag = s.updateFlag := rfl
@[simp] theorem State.drive_pwmPhase (s : State) (k : Ch) (p : BitVec 5) :
    (s.drive k p).pwmPhase = s.pwmPhase := rfl
@[simp] theorem State.drive_flasher (s : State) (k : Ch) (p : BitVec 5) :
    (s.drive k p).flasher = s.flasher := rfl
@[simp] theorem State.drive_flashCount (s : State) (k : Ch) (p : BitVec 5) :
    (s.drive k p).flashCount = s.flashCount := rfl
@[simp] theorem State.drive_msAcc (s : State) (k : Ch) (p : BitVec 5) :
    (s.drive k p).msAcc = s.msAcc := rfl
@[simp] theorem State.drive_msCount (s : State) (k : Ch) (p : BitVec 5) :
    (s.drive k p).msCount = s.msCount := rfl
@[simp] theorem State.drive_regmap (s : State) (k : Ch) (p : BitVec 5) :
    (s.drive k p).regmap = s.regmap := rfl
@[simp] theorem State.drive_busBusy (s : State) (k : Ch) (p : BitVec 5) :
    (s.drive k p).busBusy = s.busBusy := rfl
@[simp] theorem State.drive_senseRaw (s : State) (k : Ch) (p : BitVec 5) :
    (s.drive k p).senseRaw = s.senseRaw := rfl
@[simp] theorem State.drive_debState (s : State) (k : Ch) (p : BitVec 5) :
    (s.drive k p).debState = s.debState := rfl
@[simp] theorem State.drive_clockA (s : State) (k : Ch) (p : BitVec 5) :
    (s.drive k p).clockA = s.clockA := rfl
@[simp] theorem State.drive_clockB (s : State) (k : Ch) (p : BitVec 5) :
    (s.drive k p).clockB = s.clockB := rfl
@[simp] theorem State.drive_main (s : State) (k : Ch) (p : BitVec 5) :
    (s.drive k p).main = s.main := rfl
@[simp] theorem State.drive_cmdCh (s : State) (k : Ch) (p : BitVec 5) :
    (s.drive k p).cmdCh = s.cmdCh := rfl
@[simp] theorem State.drive_result (s : State) (k : Ch) (p : BitVec 5) :
    (s.drive k p).result = s.result := rfl
@[simp] theorem State.drive_sched (s : State) (k : Ch) (p : BitVec 5) :
    (s.drive k p).sched = s.sched := rfl
@[simp] theorem State.drive_choice (s : State) (k : Ch) (p : BitVec 5) :
    (s.drive k p).choice = s.choice := rfl

/-! ### driveAll -/

@[simp] theorem State.driveAll_cfg (s : State) (p : BitVec 5) :
    (s.driveAll p).cfg = s.cfg := rfl
@[simp] theorem State.driveAll_chans (s : State) (p : BitVec 5) :
    (s.driveAll p).chans = s.chans := rfl
@[simp] theorem State.driveAll_updateFlag (s : State) (p : BitVec 5) :
    (s.driveAll p).updateFlag = s.updateFlag := rfl
@[simp] theorem State.driveAll_pwmPhase (s : State) (p : BitVec 5) :
    (s.driveAll p).pwmPhase = s.pwmPhase := rfl
@[simp] theorem State.driveAll_flasher (s : State) (p : BitVec 5) :
    (s.driveAll p).flasher = s.flasher := rfl
@[simp] theorem State.driveAll_flashCount (s : State) (p : BitVec 5) :
    (s.driveAll p).flashCount = s.flashCount := rfl
@[simp] theorem State.driveAll_msAcc (s : State) (p : BitVec 5) :
    (s.driveAll p).msAcc = s.msAcc := rfl
@[simp] theorem State.driveAll_msCount (s : State) (p : BitVec 5) :
    (s.driveAll p).msCount = s.msCount := rfl
@[simp] theorem State.driveAll_regmap (s : State) (p : BitVec 5) :
    (s.driveAll p).regmap = s.regmap := rfl
@[simp] theorem State.driveAll_busBusy (s : State) (p : BitVec 5) :
    (s.driveAll p).busBusy = s.busBusy := rfl
@[simp] theorem State.driveAll_senseRaw (s : State) (p : BitVec 5) :
    (s.driveAll p).senseRaw = s.senseRaw := rfl
@[simp] theorem State.driveAll_debState (s : State) (p : BitVec 5) :
    (s.driveAll p).debState = s.debState := rfl
@[simp] theorem State.driveAll_clockA (s : State) (p : BitVec 5) :
    (s.driveAll p).clockA = s.clockA := rfl
@[simp] theorem State.driveAll_clockB (s : State) (p : BitVec 5) :
    (s.driveAll p).clockB = s.clockB := rfl
@[simp] theorem State.driveAll_main (s : State) (p : BitVec 5) :
    (s.driveAll p).main = s.main := rfl
@[simp] theorem State.driveAll_cmdCh (s : State) (p : BitVec 5) :
    (s.driveAll p).cmdCh = s.cmdCh := rfl
@[simp] theorem State.driveAll_result (s : State) (p : BitVec 5) :
    (s.driveAll p).result = s.result := rfl
@[simp] theorem State.driveAll_sched (s : State) (p : BitVec 5) :
    (s.driveAll p).sched = s.sched := rfl
@[simp] theorem State.driveAll_choice (s : State) (p : BitVec 5) :
    (s.driveAll p).choice = s.choice := rfl

/-! ### debounce -/

@[simp] theorem State.debounce_cfg (s : State) (raw : Byte) :
    (s.debounce raw).cfg = s.cfg := rfl
@[simp] theorem State.debounce_chans (s : State) (raw : Byte) :
    (s.debounce raw).chans = s.chans := rfl
@[simp] theorem State.debounce_updateFlag (s : State) (raw : Byte) :
    (s.debounce raw).updateFlag = s.updateFlag := rfl
@[simp] theorem State.debounce_pwmPhase (s : State) (raw : Byte) :
    (s.debounce raw).pwmPhase = s.pwmPhase := rfl
@[simp] theorem State.debounce_flasher (s : State) (raw : Byte) :
    (s.debounce raw).flasher = s.flasher := rfl
@[simp] theorem State.debounce_flashCount (s : State) (raw : Byte) :
    (s.debounce raw).flashCount = s.flashCount := rfl
@[simp] theorem State.debounce_msAcc (s : State) (raw : Byte) :
    (s.debounce raw).msAcc = s.msAcc := rfl
@[simp] theorem State.debounce_msCount (s : State) (raw : Byte) :
    (s.debounce raw).msCount = s.msCount := rfl
@[simp] theorem State.debounce_regmap (s : State) (raw : Byte) :
    (s.debounce raw).regmap = s.regmap := rfl
@[simp] theorem State.debounce_busBusy (s : State) (raw : Byte) :
    (s.debounce raw).busBusy = s.busBusy := rfl
@[simp] theorem State.debounce_senseRaw (s : State) (raw : Byte) :
    (s.debounce raw).senseRaw = s.senseRaw := rfl
@[simp] theorem State.debounce_out (s : State) (raw : Byte) :
    (s.debounce raw).out = s.out := rfl
@[simp] theorem State.debounce_main (s : State) (raw : Byte) :
    (s.debounce raw).main = s.main := rfl
@[simp] theorem State.debounce_cmdCh (s : State) (raw : Byte) :
    (s.debounce raw).cmdCh = s.cmdCh := rfl
@[simp] theorem State.debounce_result (s : State) (raw : Byte) :
    (s.debounce raw).result = s.result := rfl
@[simp] theorem State.debounce_sched (s : State) (raw : Byte) :
    (s.debounce raw).sched = s.sched := rfl
@[simp] theorem State.debounce_choice (s : State) (raw : Byte) :
    (s.debounce raw).choice = s.choice := rfl

/-! ### bumpPhase -/

@[simp] theorem State.bumpPhase_cfg (s : State) :
    s.bumpPhase.cfg = s.cfg := rfl
@[simp] theorem State.bumpPhase_chans (s : State) :
    s.bumpPhase.chans = s.chans := rfl
@[simp] theorem State.bumpPhase_flasher (s : State) :
    s.bumpPhase.flasher = s.flasher := rfl
@[simp] theorem State.bumpPhase_flashCount (s : State) :
    s.bumpPhase.flashCount = s.flashCount := rfl
@[simp] theorem State.bumpPhase_msAcc (s : State) :
    s.bumpPhase.msAcc = s.msAcc := rfl
@[simp] theorem State.bumpPhase_msCount (s : State) :
    s.bumpPhase.msCount = s.msCount := rfl
@[simp] theorem State.bumpPhase_regmap (s : State) :
    s.bumpPhase.regmap = s.regmap := rfl
@[simp] theorem State.bumpPhase_busBusy (s : State) :
    s.bumpPhase.busBusy = s.busBusy := rfl
@[simp] theorem State.bumpPhase_senseRaw (s : State) :
    s.bumpPhase.senseRaw = s.senseRaw := rfl
@[simp] theorem State.bumpPhase_debState (s : State) :
    s.bumpPhase.debState = s.debState := rfl
@[simp] theorem State.bumpPhase_clockA (s : State) :
    s.bumpPhase.clockA = s.clockA := rfl
@[simp] theorem State.bumpPhase_clockB (s : State) :
    s.bumpPhase.clockB = s.clockB := rfl
@[simp] theorem State.bumpPhase_out (s : State) :
    s.bumpPhase.out = s.out := rfl
@[simp] theorem State.bumpPhase_main (s : State) :
    s.bumpPhase.main = s.main := rfl
@[simp] theorem State.bumpPhase_cmdCh (s : State) :
    s.bumpPhase.cmdCh = s.cmdCh := rfl
@[simp] theorem State.bumpPhase_result (s : State) :
    s.bumpPhase.result = s.result := rfl
@[simp] theorem State.bumpPhase_sched (s : State) :
    s.bumpPhase.sched = s.sched := rfl
@[simp] theorem State.bumpPhase_choice (s : State) :
    s.bumpPhase.choice = s.choice := rfl

/-! ### bumpMillis -/

@[simp] theorem State.bumpMillis_cfg (s : State) :
    s.bumpMillis.cfg = s.cfg := by
  unfold State.bumpMillis; split <;> rfl
@[simp] theorem State.bumpMillis_chans (s : State) :
    s.bumpMillis.chans = s.chans := by
  unfold State.bumpMillis; split <;> rfl
@[simp] theorem State.bumpMillis_updateFlag (s : State) :
    s.bumpMillis.updateFlag = s.updateFlag := by
  unfold State.bumpMillis; split <;> rfl
@[simp] theorem State.bumpMillis_pwmPhase (s : State) :
    s.bumpMillis.pwmPhase = s.pwmPhase := by
  unfold State.bumpMillis; split <;> rfl
@[simp] theorem State.bumpMillis_flasher (s : State) :
    s.bumpMillis.flasher = s.flasher := by
  unfold State.bumpMillis; split <;> rfl
@[simp] theorem State.bumpMillis_flashCount (s : State) :
    s.bumpMillis.flashCount = s.flashCount := by
  unfold State.bumpMillis; split <;> rfl
@[simp] theorem State.bumpMillis_regmap (s : State) :
    s.bumpMillis.regmap = s.regmap := by
  unfold State.bumpMillis; split <;> rfl
@[simp] theorem State.bumpMillis_busBusy (s : State) :
    s.bumpMillis.busBusy = s.busBusy := by
  unfold State.bumpMillis; split <;> rfl
@[simp] theorem State.bumpMillis_senseRaw (s : State) :
    s.bumpMillis.senseRaw = s.senseRaw := by
  unfold State.bumpMillis; split <;> rfl
@[simp] theorem State.bumpMillis_debState (s : State) :
    s.bumpMillis.debState = s.debState := by
  unfold State.bumpMillis; split <;> rfl
@[simp] theorem State.bumpMillis_clockA (s : State) :
    s.bumpMillis.clockA = s.clockA := by
  unfold State.bumpMillis; split <;> rfl
@[simp] theorem State.bumpMillis_clockB (s : State) :
    s.bumpMillis.clockB = s.clockB := by
  unfold State.bumpMillis; split <;> rfl
@[simp] theorem State.bumpMillis_out (s : State) :
    s.bumpMillis.out = s.out := by
  unfold State.bumpMillis; split <;> rfl
@[simp] theorem State.bumpMillis_main (s : State) :
    s.bumpMillis.main = s.main := by
  unfold State.bumpMillis; split <;> rfl
@[simp] theorem State.bumpMillis_cmdCh (s : State) :
    s.bumpMillis.cmdCh = s.cmdCh := by
  unfold State.bumpMillis; split <;> rfl
@[simp] theorem State.bumpMillis_result (s : State) :
    s.bumpMillis.result = s.result := by
  unfold State.bumpMillis; split <;> rfl
@[simp] theorem State.bumpMillis_sched (s : State) :
    s.bumpMillis.sched = s.sched := by
  unfold State.bumpMillis; split <;> rfl
@[simp] theorem State.bumpMillis_choice (s : State) :
    s.bumpMillis.choice = s.choice := by
  unfold State.bumpMillis; split <;> rfl

/-! ### bumpFlasher -/

@[simp] theorem State.bumpFlasher_cfg (s : State) :
    s.bumpFlasher.cfg = s.cfg := by
  unfold State.bumpFlasher; split <;> rfl
@[simp] theorem State.bumpFlasher_chans (s : State) :
    s.bumpFlasher.chans = s.chans := by
  unfold State.bumpFlasher; split <;> rfl
@[simp] theorem State.bumpFlasher_updateFlag (s : State) :
    s.bumpFlasher.updateFlag = s.updateFlag := by
  unfold State.bumpFlasher; split <;> rfl
@[simp] theorem State.bumpFlasher_pwmPhase (s : State) :
    s.bumpFlasher.pwmPhase = s.pwmPhase := by
  unfold State.bumpFlasher; split <;> rfl
@[simp] theorem State.bumpFlasher_msAcc (s : State) :
    s.bumpFlasher.msAcc = s.msAcc := by
  unfold State.bumpFlasher; split <;> rfl
@[simp] theorem State.bumpFlasher_msCount (s : State) :
    s.bumpFlasher.msCount = s.msCount := by
  unfold State.bumpFlasher; split <;> rfl
@[simp] theorem State.bumpFlasher_regmap (s : State) :
    s.bumpFlasher.regmap = s.regmap := by
  unfold State.bumpFlasher; split <;> rfl
@[simp] theorem State.bumpFlasher_busBusy (s : State) :
    s.bumpFlasher.busBusy = s.busBusy := by
  unfold State.bumpFlasher; split <;> rfl
@[simp] theorem State.bumpFlasher_senseRaw (s : State) :
    s.bumpFlasher.senseRaw = s.senseRaw := by
  unfold State.bumpFlasher; split <;> rfl
@[simp] theorem State.bumpFlasher_debState (s : State) :
    s.bumpFlasher.debState = s.debState := by
  unfold State.bumpFlasher; split <;> rfl
@[simp] theorem State.bumpFlasher_clockA (s : State) :
    s.bumpFlasher.clockA = s.clockA := by
  unfold State.bumpFlasher; split <;> rfl
@[simp] theorem State.bumpFlasher_clockB (s : State) :
    s.bumpFlasher.clockB = s.clockB := by
  unfold State.bumpFlasher; split <;> rfl
@[simp] theorem State.bumpFlasher_out (s : State) :
    s.bumpFlasher.out = s.out := by
  unfold State.bumpFlasher; split <;> rfl
@[simp] theorem State.bumpFlasher_main (s : State) :
    s.bumpFlasher.main = s.main := by
  unfold State.bumpFlasher; split <;> rfl
@[simp] theorem State.bumpFlasher_cmdCh (s : State) :
    s.bumpFlasher.cmdCh = s.cmdCh := by
  unfold State.bumpFlasher; split <;> rfl
@[simp] theorem State.bumpFlasher_result (s : State) :
    s.bumpFlasher.result = s.result := by
  unfold State.bumpFlasher; split <;> rfl
@[simp] theorem State.bumpFlasher_sched (s : State) :
    s.bumpFlasher.sched = s.sched := by
  unfold State.bumpFlasher; split <;> rfl
@[simp] theorem State.bumpFlasher_choice (s : State) :
    s.bumpFlasher.choice = s.choice := by
  unfold State.bumpFlasher; split <;> rfl

/-! ### advanceAll -/

@[simp] theorem State.advanceAll_cfg (s : State) (f : Bool) :
    (s.advanceAll f).cfg = s.cfg := rfl
@[simp] theorem State.advanceAll_updateFlag (s : State) (f : Bool) :
    (s.advanceAll f).updateFlag = s.updateFlag := rfl
@[simp] theorem State.advanceAll_pwmPhase (s : State) (f : Bool) :
    (s.advanceAll f).pwmPhase = s.pwmPhase := rfl
@[simp] theorem State.advanceAll_flasher (s : State) (f : Bool) :
    (s.advanceAll f).flasher = s.flasher := rfl
@[simp] theorem State.advanceAll_flashCount (s : State) (f : Bool) :
    (s.advanceAll f).flashCount = s.flashCount := rfl
@[simp] theorem State.advanceAll_msAcc (s : State) (f : Bool) :
    (s.advanceAll f).msAcc = s.msAcc := rfl
@[simp] theorem State.advanceAll_msCount (s : State) (f : Bool) :
    (s.advanceAll f).msCount = s.msCount := rfl
@[simp] theorem State.advanceAll_regmap (s : State) (f : Bool) :
    (s.advanceAll f).regmap = s.regmap := rfl
@[simp] theorem State.advanceAll_busBusy (s : State) (f : Bool) :
    (s.advanceAll f).busBusy = s.busBusy := rfl
@[simp] theorem State.advanceAll_senseRaw (s : State) (f : Bool) :
    (s.advanceAll f).senseRaw = s.senseRaw := rfl
@[simp] theorem State.advanceAll_debState (s : State) (f : Bool) :
    (s.advanceAll f).debState = s.debState := rfl
@[simp] theorem State.advanceAll_clockA (s : State) (f : Bool) :
    (s.advanceAll f).clockA = s.clockA := rfl
@[simp] theorem State.advanceAll_clockB (s : State) (f : Bool) :
    (s.advanceAll f).clockB = s.clockB := rfl
@[simp] theorem State.advanceAll_out (s : State) (f : Bool) :
    (s.advanceAll f).out = s.out := rfl
@[simp] theorem State.advanceAll_main (s : State) (f : Bool) :
    (s.advanceAll f).main = s.main := rfl
@[simp] theorem State.advanceAll_cmdCh (s : State) (f : Bool) :
    (s.advanceAll f).cmdCh = s.cmdCh := rfl
@[simp] theorem State.advanceAll_result (s : State) (f : Bool) :
    (s.advanceAll f).result = s.result := rfl
@[simp] theorem State.advanceAll_sched (s : State) (f : Bool) :
    (s.advanceAll f).sched = s.sched := rfl
@[simp] theorem State.advanceAll_choice (s : State) (f : Bool) :
    (s.advanceAll f).choice = s.choice := rfl

/-! ### takeCommands -/

@[simp] theorem State.takeCommands_cfg (s : State) :
    s.takeCommands.cfg = s.cfg := rfl
@[simp] theorem State.takeCommands_updateFlag (s : State) :
    s.takeCommands.updateFlag = s.updateFlag := rfl
@[simp] theorem State.takeCommands_pwmPhase (s : State) :
    s.takeCommands.pwmPhase = s.pwmPhase := rfl
@[simp] theorem State.takeCommands_flasher (s : State) :
    s.takeCommands.flasher = s.flasher := rfl
@[simp] theorem State.takeCommands_flashCount (s : State) :
    s.takeCommands.flashCount = s.flashCount := rfl
@[simp] theorem State.takeCommands_msAcc (s : State) :
    s.takeCommands.msAcc = s.msAcc := rfl
@[simp] theorem State.takeCommands_msCount (s : State) :
    s.takeCommands.msCount = s.msCount := rfl
@[simp] theorem State.takeCommands_regmap (s : State) :
    s.takeCommands.regmap = s.regmap := rfl
@[simp] theorem State.takeCommands_busBusy (s : State) :
    s.takeCommands.busBusy = s.busBusy := rfl
@[simp] theorem State.takeCommands_senseRaw (s : State) :
    s.takeCommands.senseRaw = s.senseRaw := rfl
@[simp] theorem State.takeCommands_debState (s : State) :
    s.takeCommands.debState = s.debState := rfl
@[simp] theorem State.takeCommands_clockA (s : State) :
    s.takeCommands.clockA = s.clockA := rfl
@[simp] theorem State.takeCommands_clockB (s : State) :
    s.takeCommands.clockB = s.clockB := rfl
@[simp] theorem State.takeCommands_out (s : State) :
    s.takeCommands.out = s.out := rfl
@[simp] theorem State.takeCommands_main (s : State) :
    s.takeCommands.main = s.main := rfl
@[simp] theorem State.takeCommands_cmdCh (s : State) :
    s.takeCommands.cmdCh = s.cmdCh := rfl
@[simp] theorem State.takeCommands_result (s : State) :
    s.takeCommands.result = s.result := rfl
@[simp] theorem State.takeCommands_sched (s : State) :
    s.takeCommands.sched = s.sched := rfl
@[simp] theorem State.takeCommands_choice (s : State) :
    s.takeCommands.choice = s.choice := rfl

/-! ### advanceUnit: one unit of an ADVANCE writes its channel's record and where the main loop stands -/

@[simp] theorem State.advanceUnit_cfg (s : State) (k : Ch) (u : AdvanceUnit) :
    (s.advanceUnit k u).cfg = s.cfg := by
  cases u <;> rfl
@[simp] theorem State.advanceUnit_updateFlag (s : State) (k : Ch) (u : AdvanceUnit) :
    (s.advanceUnit k u).updateFlag = s.updateFlag := by
  cases u <;> rfl
@[simp] theorem State.advanceUnit_pwmPhase (s : State) (k : Ch) (u : AdvanceUnit) :
    (s.advanceUnit k u).pwmPhase = s.pwmPhase := by
  cases u <;> rfl
@[simp] theorem State.advanceUnit_flasher (s : State) (k : Ch) (u : AdvanceUnit) :
    (s.advanceUnit k u).flasher = s.flasher := by
  cases u <;> rfl
@[simp] theorem State.advanceUnit_flashCount (s : State) (k : Ch) (u : AdvanceUnit) :
    (s.advanceUnit k u).flashCount = s.flashCount := by
  cases u <;> rfl
@[simp] theorem State.advanceUnit_msAcc (s : State) (k : Ch) (u : AdvanceUnit) :
    (s.advanceUnit k u).msAcc = s.msAcc := by
  cases u <;> rfl
@[simp] theorem State.advanceUnit_msCount (s : State) (k : Ch) (u : AdvanceUnit) :
    (s.advanceUnit k u).msCount = s.msCount := by
  cases u <;> rfl
@[simp] theorem State.advanceUnit_regmap (s : State) (k : Ch) (u : AdvanceUnit) :
    (s.advanceUnit k u).regmap = s.regmap := by
  cases u <;> rfl
@[simp] theorem State.advanceUnit_busBusy (s : State) (k : Ch) (u : AdvanceUnit) :
    (s.advanceUnit k u).busBusy = s.busBusy := by
  cases u <;> rfl
@[simp] theorem State.advanceUnit_senseRaw (s : State) (k : Ch) (u : AdvanceUnit) :
    (s.advanceUnit k u).senseRaw = s.senseRaw := by
  cases u <;> rfl
@[simp] theorem State.advanceUnit_debState (s : State) (k : Ch) (u : AdvanceUnit) :
    (s.advanceUnit k u).debState = s.debState := by
  cases u <;> rfl
@[simp] theorem State.advanceUnit_clockA (s : State) (k : Ch) (u : AdvanceUnit) :
    (s.advanceUnit k u).clockA = s.clockA := by
  cases u <;> rfl
@[simp] theorem State.advanceUnit_clockB (s : State) (k : Ch) (u : AdvanceUnit) :
    (s.advanceUnit k u).clockB = s.clockB := by
  cases u <;> rfl
@[simp] theorem State.advanceUnit_out (s : State) (k : Ch) (u : AdvanceUnit) :
    (s.advanceUnit k u).out = s.out := by
  cases u <;> rfl
@[simp] theorem State.advanceUnit_cmdCh (s : State) (k : Ch) (u : AdvanceUnit) :
    (s.advanceUnit k u).cmdCh = s.cmdCh := by
  cases u <;> rfl
@[simp] theorem State.advanceUnit_result (s : State) (k : Ch) (u : AdvanceUnit) :
    (s.advanceUnit k u).result = s.result := by
  cases u <;> rfl
@[simp] theorem State.advanceUnit_sched (s : State) (k : Ch) (u : AdvanceUnit) :
    (s.advanceUnit k u).sched = s.sched := by
  cases u <;> rfl
@[simp] theorem State.advanceUnit_choice (s : State) (k : Ch) (u : AdvanceUnit) :
    (s.advanceUnit k u).choice = s.choice := by
  cases u <;> rfl

end Sys2Proof.Machine
end

