-- ==== Sys2Proof/Laws/Memory.lean ====
section
/-! SUPPORT. The register map: a read after a write, and that writing keeps the canonical form. -/

namespace Sys2Proof.Machine

/-- No entry below the form's lower bound is listed. -/
theorem Memory.read_of_lt {cfg : Config} {lo a : Nat} {m : List Host.Cell} (d : Byte)
    (h : Memory.wfFrom cfg lo m = true) (ha : a < lo) : Memory.read d m a = d := by
  induction m generalizing lo with
  | nil => rfl
  | cons c rest ih =>
    obtain ⟨b, v⟩ := c
    simp only [Memory.wfFrom, Bool.and_eq_true, decide_eq_true_eq] at h
    simp only [Memory.read]
    rw [if_neg (by omega)]
    exact ih h.2 (by omega)

/-- Reading the offset just written gives the byte written, in a list whose offsets rise. -/
theorem Memory.read_write_same {cfg : Config} {lo : Nat} {m : List Host.Cell} (a : Nat) (v : Byte)
    (h : Memory.wfFrom cfg lo m = true) :
    Memory.read (regDefault cfg a) (Memory.write (regDefault cfg a) m a v) a = v := by
  induction m generalizing lo with
  | nil =>
    simp only [Memory.write]
    split
    · next hv => exact hv.symm
    · simp [Memory.read]
  | cons c rest ih =>
    obtain ⟨b, u⟩ := c
    simp only [Memory.wfFrom, Bool.and_eq_true, decide_eq_true_eq] at h
    simp only [Memory.write]
    split
    · next hlt =>
      simp only [Memory.read]
      rw [if_neg (by omega)]
      exact ih h.2
    · split
      · next _ hb =>
        split
        · next hv =>
          rw [Memory.read_of_lt (regDefault cfg a) h.2 (by omega)]
          exact hv.symm
        · simp [Memory.read]
      · next hnlt hne =>
        split
        · next hv =>
          simp only [Memory.read]
          rw [if_neg hne, Memory.read_of_lt (regDefault cfg a) h.2 (by omega)]
          exact hv.symm
        · simp [Memory.read]

/-- A write leaves every other offset as it reads, in any list. -/
theorem Memory.read_write_ne (d e : Byte) (m : List Host.Cell) {a b : Nat} (v : Byte) (h : b ≠ a) :
    Memory.read e (Memory.write d m a v) b = Memory.read e m b := by
  induction m with
  | nil =>
    simp only [Memory.write]
    split
    · rfl
    · simp [Memory.read, Ne.symm h]
  | cons c rest ih =>
    obtain ⟨x, u⟩ := c
    simp only [Memory.write]
    split
    · simp only [Memory.read, ih]
    · split
      · next _ hx =>
        subst hx
        split <;> simp [Memory.read, Ne.symm h]
      · split
        · rfl
        · simp [Memory.read, Ne.symm h]

/-- A form that starts higher also starts lower. -/
theorem Memory.wfFrom_mono {cfg : Config} {lo hi : Nat} {m : List Host.Cell}
    (h : Memory.wfFrom cfg hi m = true) (hle : lo ≤ hi) : Memory.wfFrom cfg lo m = true := by
  cases m with
  | nil => rfl
  | cons c rest =>
    obtain ⟨b, v⟩ := c
    simp only [Memory.wfFrom, Bool.and_eq_true, decide_eq_true_eq] at h ⊢
    exact ⟨⟨by omega, h.1.2⟩, h.2⟩

/-- Writing keeps the canonical form. -/
theorem Memory.wfFrom_write {cfg : Config} {lo a : Nat} {m : List Host.Cell} (v : Byte)
    (h : Memory.wfFrom cfg lo m = true) (hlo : lo ≤ a) (ha : a < 24) :
    Memory.wfFrom cfg lo (Memory.write (regDefault cfg a) m a v) = true := by
  induction m generalizing lo with
  | nil =>
    simp only [Memory.write]
    split
    · rfl
    · next hv => simp [Memory.wfFrom, hlo, ha, hv]
  | cons c rest ih =>
    obtain ⟨b, u⟩ := c
    have h' := h
    simp only [Memory.wfFrom, Bool.and_eq_true, decide_eq_true_eq] at h
    simp only [Memory.write]
    split
    · next hlt =>
      simp only [Memory.wfFrom, Bool.and_eq_true, decide_eq_true_eq]
      exact ⟨h.1, ih h.2 (by omega)⟩
    · split
      · next _ hb =>
        subst hb
        split
        · exact Memory.wfFrom_mono h.2 (by omega)
        · next hv =>
          simp only [Memory.wfFrom, Bool.and_eq_true, decide_eq_true_eq]
          exact ⟨⟨hlo, ha, hv⟩, h.2⟩
      · next hnlt hne =>
        split
        · exact h'
        · next hv =>
          simp only [Memory.wfFrom, Bool.and_eq_true, decide_eq_true_eq]
          exact ⟨⟨hlo, ha, hv⟩, ⟨⟨by omega, h.1.2⟩, h.2⟩⟩

/-- Every write of the register map keeps the canonical form. -/
theorem State.writeReg_wf {s : State} (a : Fin 24) (v : Byte) (h : Memory.wf s.cfg s.regmap = true) :
    Memory.wf (s.writeReg a v).cfg (s.writeReg a v).regmap = true :=
  Memory.wfFrom_write v h (Nat.zero_le _) a.isLt

/-- The memory of the state after reset is canonical. -/
theorem State.reset_wf : Memory.wf State.reset.cfg State.reset.regmap = true := rfl

/-- Another byte of the register map reads as before. -/
theorem State.readReg_writeReg_ne (s : State) {a b : Fin 24} (v : Byte) (h : b ≠ a) :
    (s.writeReg a v).readReg b = s.readReg b :=
  Memory.read_write_ne _ _ _ _ fun e => h (Fin.ext e)

end Sys2Proof.Machine
end

