-- ==== Sys2Proof/Laws/Ops.lean ====
section
/-! SUPPORT. What each shared operation does, said once: channel reads after each update, and the frame of the
operations that change one channel. -/

namespace Sys2Proof.Machine

/-! ### Channel reads -/

@[simp] theorem State.chan_setChan_same (s : State) (k : Ch) (c : Channel) : (s.setChan k c).chan k = c :=
  Bank.get_set_same _ _ _

@[simp] theorem State.chan_setChan_ne (s : State) {j k : Ch} (c : Channel) (h : j ≠ k) :
    (s.setChan k c).chan j = s.chan j :=
  Bank.get_set_ne _ _ h

/-- Of two records set for one channel the second stays. -/
@[simp] theorem State.setChan_setChan (s : State) (k : Ch) (a b : Channel) :
    (s.setChan k a).setChan k b = s.setChan k b := by
  have h : (s.chans.set k a).set k b = s.chans.set k b := Bank.ext_get fun j => by
    by_cases hj : j = k
    · subst hj; simp
    · simp [hj]
  simp only [State.setChan, h]

/-- Writing back the record a channel holds changes nothing. -/
theorem State.setChan_self (s : State) (k : Ch) : s.setChan k (s.chan k) = s := by
  have h : s.chans.set k (s.chan k) = s.chans := Bank.ext_get fun j => by
    by_cases hj : j = k
    · subst hj; simp [State.chan]
    · simp [hj]
  simp only [State.setChan, h]

@[simp] theorem State.chan_writeReg (s : State) (a : Fin 24) (v : Byte) (k : Ch) :
    (s.writeReg a v).chan k = s.chan k := rfl

@[simp] theorem State.chan_drive (s : State) (j : Ch) (p : BitVec 5) (k : Ch) :
    (s.drive j p).chan k = s.chan k := rfl

@[simp] theorem State.chan_driveAll (s : State) (p : BitVec 5) (k : Ch) :
    (s.driveAll p).chan k = s.chan k := rfl

@[simp] theorem State.chan_debounce (s : State) (raw : Byte) (k : Ch) :
    (s.debounce raw).chan k = s.chan k := rfl

@[simp] theorem State.chan_bumpPhase (s : State) (k : Ch) : s.bumpPhase.chan k = s.chan k := rfl

@[simp] theorem State.chan_bumpMillis (s : State) (k : Ch) : s.bumpMillis.chan k = s.chan k := by
  simp [State.chan]

@[simp] theorem State.chan_bumpFlasher (s : State) (k : Ch) : s.bumpFlasher.chan k = s.chan k := by
  simp [State.chan]

@[simp] theorem State.chan_tick (s : State) (k : Ch) : s.tick.chan k = s.chan k := by
  simp [State.tick]

@[simp] theorem State.chan_advanceAll (s : State) (f : Bool) (k : Ch) :
    (s.advanceAll f).chan k = (s.chan k).advance s.cfg f :=
  Bank.get_ofFn _ _

@[simp] theorem State.chan_takeCommands (s : State) (k : Ch) :
    s.takeCommands.chan k =
      ((s.chan k).setTarget (decodeAspect (s.readReg (aspectOffset k)))).setOptions s.cfg.senseAnodeLevel
        (s.readReg (optionOffset k)) s.senseBit :=
  Bank.get_ofFn _ _

@[simp] theorem State.chan_resetBlock (s : State) (k : Ch) : s.resetBlock.chan k = Channel.atReset :=
  Bank.get_ofFn _ _

@[simp] theorem State.chan_advanceUnit_ne (s : State) {j k : Ch} (u : AdvanceUnit) (h : j ≠ k) :
    (s.advanceUnit k u).chan j = s.chan j := by
  cases u <;> first | rfl | exact State.chan_setChan_ne s _ h

@[simp] theorem State.chan_advanceUnit_write (s : State) (k : Ch) (w : ChanWrite) (p : AdvancePoint) :
    (s.advanceUnit k (.write w p)).chan k = (s.chan k).write w :=
  State.chan_setChan_same s k _

@[simp] theorem State.chan_advanceUnit_last (s : State) (k : Ch) (w : ChanWrite) :
    (s.advanceUnit k (.last w)).chan k = (s.chan k).write w :=
  State.chan_setChan_same s k _

@[simp] theorem State.chan_advanceUnit_done (s : State) (k : Ch) : (s.advanceUnit k .done).chan k = s.chan k := rfl

/-! ### Register-map reads: they depend on the parameters and the cells only -/

theorem State.readReg_congr {s t : State} (hc : t.cfg = s.cfg) (hm : t.regmap = s.regmap) (a : Fin 24) :
    t.readReg a = s.readReg a := by
  simp only [State.readReg, hc, hm]

@[simp] theorem State.readReg_setChan (s : State) (k : Ch) (c : Channel) (a : Fin 24) :
    (s.setChan k c).readReg a = s.readReg a := rfl

@[simp] theorem State.readReg_debounce (s : State) (raw : Byte) (a : Fin 24) :
    (s.debounce raw).readReg a = s.readReg a := rfl

@[simp] theorem State.readReg_takeCommands (s : State) (a : Fin 24) :
    s.takeCommands.readReg a = s.readReg a := rfl

@[simp] theorem State.readReg_tick (s : State) (a : Fin 24) : s.tick.readReg a = s.readReg a :=
  State.readReg_congr (by simp [State.tick]) (by simp [State.tick]) a

/-! ### The frame of an update of one channel record -/

/-- Replacing one channel's record changes nothing else. -/
theorem State.setChan_onlyChan (s : State) (k : Ch) (c : Channel) : OnlyChan k s (s.setChan k c) := by
  exact ⟨fun j hj => State.chan_setChan_ne s c hj, ⟨rfl, rfl, rfl, rfl, rfl, rfl⟩, ⟨rfl, rfl, rfl⟩,
    fun _ => rfl, ⟨rfl, rfl⟩, fun _ => rfl, ⟨rfl, rfl, rfl, rfl, rfl⟩, rfl⟩

/-- SET_TARGET of a channel. -/
theorem State.setTarget_onlyChan (s : State) (k : Ch) (a : Aspect) :
    (s.setTarget k a).chan k = { s.chan k with nextAspect := a } ∧ OnlyChan k s (s.setTarget k a) :=
  ⟨State.chan_setChan_same s k _, State.setChan_onlyChan s k _⟩

/-- SET_OPTIONS of a channel. -/
theorem State.setOptions_onlyChan (s : State) (k : Ch) (b : Byte) :
    (s.setOptions k b).chan k = (s.chan k).setOptions s.cfg.senseAnodeLevel b s.senseBit ∧
      OnlyChan k s (s.setOptions k b) :=
  ⟨State.chan_setChan_same s k _, State.setChan_onlyChan s k _⟩

/-- ADVANCE of a channel. -/
theorem State.advance_onlyChan (s : State) (k : Ch) (f : Bool) :
    (s.advance k f).chan k = (s.chan k).advance s.cfg f ∧ OnlyChan k s (s.advance k f) :=
  ⟨State.chan_setChan_same s k _, State.setChan_onlyChan s k _⟩

/-- What ADVANCE does, said once: it answers a next state with the channel's record advanced and nothing else
changed. -/
theorem exec_advance (s : State) (k : Ch) (f : Bool) : exec (.advance k f) s = .next (s.advance k f) := rfl

/-! ### What the routes are for base aspects -/

theorem tableGet_isSome_iff (t : Table) (n : Nat) : (tableGet t n).isSome = true ↔ n < tableLen t := by
  simp only [tableGet, tableLen]
  by_cases h : n < t.1.val + 1 <;> simp [h]

theorem tableGet_none_iff (t : Table) (n : Nat) : tableGet t n = none ↔ tableLen t ≤ n := by
  rw [← Option.not_isSome_iff_eq_none, tableGet_isSome_iff, Nat.not_lt]

theorem tableGet_lt {t : Table} {n : Nat} {e : Entry} (h : tableGet t n = some e) : n < tableLen t :=
  (tableGet_isSome_iff t n).1 (by simp [h])

/-- A table has 1 to 32 entries (00 R9). -/
theorem tableLen_bounds (t : Table) : 1 ≤ tableLen t ∧ tableLen t ≤ 32 := by
  have := t.1.isLt
  simp only [tableLen]
  omega

@[simp] theorem tableLen_fade (cfg : Config) : tableLen (fadeTable cfg) = 32 := rfl

end Sys2Proof.Machine
end

