-- ==== Sys2Proof/Laws/PerInstr.lean ====
section
/-! SUPPORT. The word of every well-formed instruction has the fixed bits that its row of spec/opcode_table.json
gives it: one lemma per constructor. -/

namespace Sys2Proof.Laws.RowPattern

/-- The bits that the row fixes (`mask` of its row in the opcode table). -/
def rowMask (i : Instr) : Nat :=
  match i with
  | .aspectOff => 0xFF
  | .aspectGreen => 0xFF
  | .aspectFlashGreen => 0xFF
  | .aspectYellow => 0xFF
  | .aspectFlashYellow => 0xFF
  | .aspectRed => 0xFF
  | .aspectFlashRed => 0xFF
  | .aspectLunar => 0xFF
  | .aspectInvalid08 _ => 0xF8
  | .aspectInvalid10 _ => 0xF0
  | .aspectInvalid20 _ => 0xE0
  | .aspectInvalid40 _ => 0xC0
  | .aspectInvalid80 _ => 0x80
  | .optionPolCommonAnode _ => 0xC0
  | .optionPolCommonCathode _ => 0xC0
  | .optionPolFromSense _ => 0xC0
  | .optionPolInvalid _ => 0xC0
  | .optionTopoThreeLamp _ => 0x07
  | .optionTopoSearchlight _ => 0x07
  | .optionTopoInvalid2 _ _ => 0x06
  | .optionTopoInvalid4 _ _ => 0x04
  | .tableEntry _ _ _ => 0x8000
  | .reset => 0xFFFFFF
  | .setTarget _ _ => 0xFFF800
  | .advance _ _ => 0xFFF8FE
  | .drive _ _ => 0xFFF8E0
  | .tick => 0xFFFFFF
  | .service => 0xFFFFFF
  | .poll => 0xFFFFFF
  | .debInit _ => 0xFFFF00
  | .debSample _ => 0xFFFF00
  | .debState => 0xFFFFFF
  | .hostWrite _ _ => 0xFFF000
  | .hostWriteUnread _ _ => 0xFFF800
  | .hostBusy _ => 0xFFFFFE
  | .hostSense _ => 0xFFFF00
  | .setOptions _ _ => 0xFFF800

/-- The value of those bits (`match` of its row). -/
def rowMatch (i : Instr) : Nat :=
  match i with
  | .aspectOff => 0x00
  | .aspectGreen => 0x01
  | .aspectFlashGreen => 0x02
  | .aspectYellow => 0x03
  | .aspectFlashYellow => 0x04
  | .aspectRed => 0x05
  | .aspectFlashRed => 0x06
  | .aspectLunar => 0x07
  | .aspectInvalid08 _ => 0x08
  | .aspectInvalid10 _ => 0x10
  | .aspectInvalid20 _ => 0x20
  | .aspectInvalid40 _ => 0x40
  | .aspectInvalid80 _ => 0x80
  | .optionPolCommonAnode _ => 0x80
  | .optionPolCommonCathode _ => 0x40
  | .optionPolFromSense _ => 0x00
  | .optionPolInvalid _ => 0xC0
  | .optionTopoThreeLamp _ => 0x00
  | .optionTopoSearchlight _ => 0x01
  | .optionTopoInvalid2 _ _ => 0x02
  | .optionTopoInvalid4 _ _ => 0x04
  | .tableEntry _ _ _ => 0x0000
  | .reset => 0x000000
  | .setTarget _ _ => 0x100000
  | .advance _ _ => 0x200000
  | .drive _ _ => 0x300000
  | .tick => 0x400000
  | .service => 0x500000
  | .poll => 0x600000
  | .debInit _ => 0x700000
  | .debSample _ => 0x800000
  | .debState => 0x900000
  | .hostWrite _ _ => 0xA00000
  | .hostWriteUnread _ _ => 0xA01000
  | .hostBusy _ => 0xB00000
  | .hostSense _ => 0xC00000
  | .setOptions _ _ => 0xD00000

/-- A well-formed instruction's word has its row's fixed bits and fits its row's width. -/
def Statement (i : Instr) : Prop :=
  WellFormed i = true → encode i &&& rowMask i = rowMatch i ∧ encode i < 2 ^ (formatOf i).width

/-- The bits from `k` up of a number whose lower part is below `2 ^ k`. -/
theorem and_high {k hi lo : Nat} (m : Nat) (h : lo < 2 ^ k) : (2 ^ k * hi + lo) &&& (2 ^ k * m) = 2 ^ k * (hi &&& m) := by
  apply Nat.eq_of_testBit_eq
  intro j
  rw [Nat.testBit_and, Nat.testBit_two_pow_mul_add _ h, Nat.testBit_two_pow_mul, Nat.testBit_two_pow_mul]
  by_cases hj : j < k
  · simp [hj, Nat.not_le.2 hj]
  · simp [hj, Nat.not_lt.1 hj, Nat.testBit_and]

theorem aspectOff : Statement .aspectOff := by
  unfold Statement; decide

theorem aspectGreen : Statement .aspectGreen := by
  unfold Statement; decide

theorem aspectFlashGreen : Statement .aspectFlashGreen := by
  unfold Statement; decide

theorem aspectYellow : Statement .aspectYellow := by
  unfold Statement; decide

theorem aspectFlashYellow : Statement .aspectFlashYellow := by
  unfold Statement; decide

theorem aspectRed : Statement .aspectRed := by
  unfold Statement; decide

theorem aspectFlashRed : Statement .aspectFlashRed := by
  unfold Statement; decide

theorem aspectLunar : Statement .aspectLunar := by
  unfold Statement; decide

theorem aspectInvalid08 (a : Byte) : Statement (.aspectInvalid08 a) := by
  unfold Statement; revert a; decide +kernel

theorem aspectInvalid10 (a : Byte) : Statement (.aspectInvalid10 a) := by
  unfold Statement; revert a; decide +kernel

theorem aspectInvalid20 (a : Byte) : Statement (.aspectInvalid20 a) := by
  unfold Statement; revert a; decide +kernel

theorem aspectInvalid40 (a : Byte) : Statement (.aspectInvalid40 a) := by
  unfold Statement; revert a; decide +kernel

theorem aspectInvalid80 (a : Byte) : Statement (.aspectInvalid80 a) := by
  unfold Statement; revert a; decide +kernel

theorem optionPolCommonAnode (a : BitVec 6) : Statement (.optionPolCommonAnode a) := by
  unfold Statement; revert a; decide +kernel

theorem optionPolCommonCathode (a : BitVec 6) : Statement (.optionPolCommonCathode a) := by
  unfold Statement; revert a; decide +kernel

theorem optionPolFromSense (a : BitVec 6) : Statement (.optionPolFromSense a) := by
  unfold Statement; revert a; decide +kernel

theorem optionPolInvalid (a : BitVec 6) : Statement (.optionPolInvalid a) := by
  unfold Statement; revert a; decide +kernel

theorem optionTopoThreeLamp (a : BitVec 5) : Statement (.optionTopoThreeLamp a) := by
  unfold Statement; revert a; decide +kernel

theorem optionTopoSearchlight (a : BitVec 5) : Statement (.optionTopoSearchlight a) := by
  unfold Statement; revert a; decide +kernel

theorem optionTopoInvalid2 (a : BitVec 5) (b : BitVec 3) : Statement (.optionTopoInvalid2 a b) := by
  unfold Statement; revert a b; decide +kernel

theorem optionTopoInvalid4 (a : BitVec 5) (b : BitVec 3) : Statement (.optionTopoInvalid4 a b) := by
  unfold Statement; revert a b; decide +kernel

theorem tableEntry (a : BitVec 5) (b : BitVec 5) (c : BitVec 5) : Statement (.tableEntry a b c) := by
  have ha := a.isLt
  have hb := b.isLt
  have hc := c.isLt
  have key := and_high (k := 15) (hi := 0) (lo := c.toNat * 1024 + b.toNat * 32 + a.toNat) 1 (by omega)
  intro _
  refine ⟨?_, ?_⟩
  · simpa [encode, rowMask, rowMatch] using key
  · simp only [encode, formatOf, Format.width]
    omega

theorem reset : Statement .reset := by
  unfold Statement; decide

theorem setTarget (a : Ch) (b : Byte) : Statement (.setTarget a b) := by
  unfold Statement; revert a b; decide +kernel

theorem advance (a : Ch) (b : Bool) : Statement (.advance a b) := by
  unfold Statement; revert a b; decide +kernel

theorem drive (a : Ch) (b : BitVec 5) : Statement (.drive a b) := by
  unfold Statement; revert a b; decide +kernel

theorem tick : Statement .tick := by
  unfold Statement; decide

theorem service : Statement .service := by
  unfold Statement; decide

theorem poll : Statement .poll := by
  unfold Statement; decide

theorem debInit (a : Byte) : Statement (.debInit a) := by
  unfold Statement; revert a; decide +kernel

theorem debSample (a : Byte) : Statement (.debSample a) := by
  unfold Statement; revert a; decide +kernel

theorem debState : Statement .debState := by
  unfold Statement; decide

theorem hostWrite (a : Byte) (b : Byte) : Statement (.hostWrite a b) := by
  intro h
  have hb := b.isLt
  simp only [WellFormed, decide_eq_true_eq] at h
  have key := and_high (k := 12) (hi := 0xA00) (lo := a.toNat * 0x100 + b.toNat) 0xFFF (by omega)
  refine ⟨?_, ?_⟩
  · simpa [encode, opWord, rowMask, rowMatch, Nat.add_assoc] using key
  · simp only [encode, opWord, formatOf, Format.width]
    omega

theorem hostWriteUnread (a : Byte) (b : Byte) : Statement (.hostWriteUnread a b) := by
  intro h
  have hb := b.isLt
  simp only [WellFormed, decide_eq_true_eq] at h
  have key := and_high (k := 11) (hi := 0x1402) (lo := (a.toNat - 16) * 0x100 + b.toNat) 0x1FFF (by omega)
  have e : 0xA * 0x100000 + a.toNat * 0x100 + b.toNat = 2 ^ 11 * 0x1402 + ((a.toNat - 16) * 0x100 + b.toNat) := by
    omega
  refine ⟨?_, ?_⟩
  · simp only [encode, opWord, rowMask, rowMatch, e]
    simpa using key
  · simp only [encode, opWord, formatOf, Format.width]
    omega

theorem hostBusy (a : Bool) : Statement (.hostBusy a) := by
  unfold Statement; revert a; decide +kernel

theorem hostSense (a : Byte) : Statement (.hostSense a) := by
  unfold Statement; revert a; decide +kernel

theorem setOptions (a : Ch) (b : Byte) : Statement (.setOptions a b) := by
  unfold Statement; revert a b; decide +kernel

end Sys2Proof.Laws.RowPattern
end

