-- ==== Sys2Proof/Laws/SignalHead.lean ====
section
/-! SUPPORT. What one ADVANCE of a channel record can do, said once: the parts of 41 R125 and the whole. -/

namespace Sys2Proof.Machine

/-! ### The duty patterns leave the rest of the record alone -/

/-- Two records that differ in their duties at most. -/
def Channel.SameButDuties (r t : Channel) : Prop :=
  ∃ x y z : Byte, t = { r with redDuty := x, yellowDuty := y, greenDuty := z }

theorem Channel.setDuty?_sameButDuties (r : Channel) (c : Option Color) (v : Byte) :
    r.SameButDuties (r.setDuty? c v) := by
  rcases c with _ | (_ | _ | _) <;> exact ⟨_, _, _, rfl⟩

theorem Channel.SameButDuties.trans {r t u : Channel} (h : r.SameButDuties t) (g : t.SameButDuties u) :
    r.SameButDuties u := by
  obtain ⟨x, y, z, rfl⟩ := h
  obtain ⟨a, b, c, rfl⟩ := g
  exact ⟨a, b, c, rfl⟩

theorem Channel.throughRed_sameButDuties (e : Entry) (r : Channel) : r.SameButDuties (r.throughRed e) :=
  ((Channel.setDuty?_sameButDuties _ _ _).trans (Channel.setDuty?_sameButDuties _ _ _)).trans
    (Channel.setDuty?_sameButDuties _ (some .red) _)

theorem Channel.crossDuties_sameButDuties (e : Entry) (r : Channel) : r.SameButDuties (r.crossDuties e) :=
  Channel.SameButDuties.trans (t := r.zeroDuties) ⟨0, 0, 0, rfl⟩
    ((Channel.setDuty?_sameButDuties _ _ _).trans (Channel.setDuty?_sameButDuties _ _ _))

/-- The involving-red and fade duties colour by colour (41 R134, R135): arrival over departure over 0. -/
theorem Channel.crossDuties_duty (e : Entry) (r : Channel) (c : Color) :
    (r.crossDuties e).duty c =
      if colorOf r.endAspect = some c then level e.up
      else if colorOf r.startAspect = some c then level e.down else 0 := by
  unfold Channel.crossDuties
  generalize colorOf r.startAspect = a
  generalize colorOf r.endAspect = b
  rcases a with _ | (_ | _ | _) <;> rcases b with _ | (_ | _ | _) <;> cases c <;> rfl

/-- The through-red duties colour by colour (41 R133): red over arrival over departure. -/
theorem Channel.throughRed_duty (e : Entry) (r : Channel) (c : Color) :
    (r.throughRed e).duty c =
      if c = .red then level e.red
      else if colorOf r.endAspect = some c then level e.up
      else if colorOf r.startAspect = some c then level e.down else r.duty c := by
  unfold Channel.throughRed
  generalize colorOf r.startAspect = a
  generalize colorOf r.endAspect = b
  rcases a with _ | (_ | _ | _) <;> rcases b with _ | (_ | _ | _) <;> cases c <;> rfl

/-- The through-red walk runs between two endpoints that have a colour (41 R132, R133). -/
theorem Channel.route_gy_colored {r : Channel} (h : r.route = .gy) :
    (colorOf r.startAspect).isSome = true ∧ (colorOf r.endAspect).isSome = true := by
  unfold Channel.route Machine.route at h
  split at h
  · next g => rcases g.2 with ⟨a, b⟩ | ⟨a, b⟩ <;> rw [a, b] <;> exact ⟨rfl, rfl⟩
  · split at h <;> cases h

/-! ### The phase -/

/-- The phase rises by 1 without wrapping while it is inside a table. -/
theorem phase_succ {p : Byte} {len : Nat} (hp : p.toNat < len) (hlen : len ≤ 32) :
    (p + 1).toNat = p.toNat + 1 := by
  rw [BitVec.toNat_add]
  change (p.toNat + 1) % 256 = _
  omega

/-- The phase step of a record whose duties are already set: on, or the end of the transition (41 R131). -/
theorem Channel.stepPhase_cases {r t : Channel} {len : Nat} (h : r.SameButDuties t) (hp : r.phase.toNat < len)
    (hlen : len ≤ 32) :
    (r.phase.toNat + 1 < len ∧ t.stepPhase len = { t with phase := r.phase + 1 }) ∨
      (r.phase.toNat + 1 = len ∧ t.stepPhase len = t.finish) := by
  obtain ⟨x, y, z, rfl⟩ := h
  have e := phase_succ hp hlen
  unfold Channel.stepPhase
  simp only [e]
  by_cases hl : r.phase.toNat + 1 < len
  · rw [if_neg (by omega)]
    exact .inl ⟨hl, rfl⟩
  · rw [if_pos (by omega)]
    exact .inr ⟨by omega, rfl⟩

/-- The skip loop moves the phase up only, and not past 32 (41 R136). -/
theorem skipZeroUp_bounds (t : Table) (n : Nat) (p : Byte) (hp : p.toNat ≤ 32) :
    p.toNat ≤ (skipZeroUp t n p).toNat ∧ (skipZeroUp t n p).toNat ≤ 32 := by
  induction n generalizing p with
  | zero => exact ⟨Nat.le_refl _, hp⟩
  | succ n ih =>
    unfold skipZeroUp
    split
    · next e he =>
      split
      · have hl := tableGet_lt he
        have hb := (tableLen_bounds t).2
        have e1 := phase_succ hl hb
        have := ih (p + 1) (by omega)
        omega
      · exact ⟨Nat.le_refl _, hp⟩
    · exact ⟨Nat.le_refl _, hp⟩

/-- A phase past every table is left alone by the skip loop. -/
theorem skipZeroUp_ge (t : Table) (n : Nat) (p : Byte) : p.toNat ≤ (skipZeroUp t n p).toNat := by
  by_cases hp : p.toNat ≤ 32
  · exact (skipZeroUp_bounds t n p hp).1
  · have hb := (tableLen_bounds t).2
    cases n with
    | zero => exact Nat.le_refl _
    | succ n =>
      unfold skipZeroUp
      rw [(tableGet_none_iff t _).2 (by omega)]

/-! ### A walk -/

/-- A walk takes its entry: the transition goes on with the phase one higher and still inside the table, or it
ends (41 R131, R137). -/
theorem Channel.takeEntry_cases (w : Route) {len : Nat} (e : Entry) {r : Channel} (hp : r.phase.toNat < len)
    (hlen : len ≤ 32) :
    (∃ x y z p, r.takeEntry w len e = { r with redDuty := x, yellowDuty := y, greenDuty := z, phase := p } ∧
        p.toNat = r.phase.toNat + 1 ∧ p.toNat < len) ∨
      (∃ x y z, r.takeEntry w len e =
        { r with redDuty := x, yellowDuty := y, greenDuty := z, phase := 0, startAspect := r.endAspect }) := by
  have e1 := phase_succ hp hlen
  have key : ∀ t : Channel, r.SameButDuties t →
      (∃ x y z p, t.stepPhase len = { r with redDuty := x, yellowDuty := y, greenDuty := z, phase := p } ∧
          p.toNat = r.phase.toNat + 1 ∧ p.toNat < len) ∨
        (∃ x y z, t.stepPhase len =
          { r with redDuty := x, yellowDuty := y, greenDuty := z, phase := 0, startAspect := r.endAspect }) := by
    intro t h
    rcases Channel.stepPhase_cases h hp hlen with ⟨hl, g⟩ | ⟨-, g⟩ <;> obtain ⟨x, y, z, rfl⟩ := h <;> rw [g]
    · exact .inl ⟨x, y, z, _, rfl, e1, by omega⟩
    · exact .inr ⟨x, y, z, rfl⟩
  cases w <;> simp only [Channel.takeEntry]
  · exact key _ (Channel.throughRed_sameButDuties e r)
  · exact key _ (Channel.crossDuties_sameButDuties e r)
  · split
    · exact .inr ⟨_, _, _, rfl⟩
    · exact key _ (Channel.crossDuties_sameButDuties e r)

/-- One step of a walk over a table, from any phase (41 R131, R138). -/
theorem Channel.walkTable_cases (w : Route) (t : Table) (r : Channel) :
    (∃ x y z p, r.walkTable w t = { r with redDuty := x, yellowDuty := y, greenDuty := z, phase := p } ∧
        p.toNat = r.phase.toNat + 1 ∧ p.toNat < tableLen t) ∨
      (∃ x y z, r.walkTable w t =
        { r with redDuty := x, yellowDuty := y, greenDuty := z, phase := 0, startAspect := r.endAspect }) := by
  unfold Channel.walkTable
  split
  · exact .inr ⟨_, _, _, rfl⟩
  · next e he => exact Channel.takeEntry_cases w e (tableGet_lt he) (tableLen_bounds t).2

/-! ### ADVANCE -/

theorem Channel.begin_of_transition {r : Channel} (t : Aspect) (h : r.startAspect ≠ r.endAspect) :
    r.begin t = r := if_neg fun g => h g.1

theorem Channel.settle_of_transition {r : Channel} (h : r.startAspect ≠ r.endAspect) : r.settle = r := if_neg h

/-- The record at steady state on its end aspect, with the duties of 41 R142. -/
def Channel.arrived (r : Channel) : Channel := { r with startAspect := r.endAspect, phase := 0 }.settle

/-- In a transition ADVANCE is one step of the walk, and the steady duties if it ends. -/
theorem Channel.advance_of_transition {cfg : Config} {f : Bool} {r : Channel}
    (h : r.startAspect ≠ r.endAspect) : r.advance cfg f = (r.walk cfg).settle := by
  simp only [Channel.advance, Channel.begin_of_transition _ h]

/-- At steady state on the effective target ADVANCE forces the duties (41 R141, R143). -/
theorem Channel.advance_of_steady {cfg : Config} (f : Bool) {r : Channel} (h : r.startAspect = r.endAspect)
    (he : effective r.nextAspect f = r.endAspect) : r.advance cfg f = r.settle := by
  have hb : r.begin (effective r.nextAspect f) = r := if_neg fun g => g.2 he
  have hw : r.walk cfg = r := if_pos h
  rw [Channel.advance, hb, hw]

/-- At steady state off the effective target ADVANCE is that of the transition it begins (41 R129). -/
theorem Channel.advance_of_begin {cfg : Config} (f : Bool) {r : Channel} (h : r.startAspect = r.endAspect)
    (he : effective r.nextAspect f ≠ r.endAspect) :
    r.advance cfg f =
      ({ r with phase := 0, endAspect := effective r.nextAspect f } : Channel).advance cfg f := by
  have hne : ({ r with phase := 0, endAspect := effective r.nextAspect f } : Channel).startAspect ≠
      ({ r with phase := 0, endAspect := effective r.nextAspect f } : Channel).endAspect := by
    simpa only [h] using Ne.symm he
  have hb : r.begin (effective r.nextAspect f) = { r with phase := 0, endAspect := effective r.nextAspect f } :=
    if_pos ⟨h, he⟩
  rw [Channel.advance_of_transition hne, Channel.advance, hb]

/-- One ADVANCE in a transition: the phase rises inside the active table, or the channel has arrived. -/
theorem Channel.advance_cases {cfg : Config} (f : Bool) {r : Channel} (h : r.startAspect ≠ r.endAspect) :
    (∃ x y z p, r.advance cfg f = { r with redDuty := x, yellowDuty := y, greenDuty := z, phase := p } ∧
        r.phase.toNat < p.toNat ∧ p.toNat < tableLen (activeTable cfg r)) ∨
      r.advance cfg f = r.arrived := by
  have key : ∀ (w : Route) (t : Table) (q : Byte), r.phase.toNat ≤ q.toNat →
      (∃ x y z p, (Channel.walkTable w t { r with phase := q }).settle =
          { r with redDuty := x, yellowDuty := y, greenDuty := z, phase := p } ∧
          r.phase.toNat < p.toNat ∧ p.toNat < tableLen t) ∨
        (Channel.walkTable w t { r with phase := q }).settle = r.arrived := by
    intro w t q hq
    rcases Channel.walkTable_cases w t { r with phase := q } with ⟨x, y, z, p, e, h1, h2⟩ | ⟨x, y, z, e⟩ <;>
      rw [e]
    · rw [Channel.settle_of_transition (by exact h)]
      exact .inl ⟨x, y, z, p, rfl, by simp only at h1; omega, h2⟩
    · exact .inr (by simp [Channel.arrived, Channel.settle])
  rw [Channel.advance_of_transition h, Channel.walk, if_neg h]
  unfold activeTable
  cases hr : r.route
  · exact key .gy cfg.gy r.phase (Nat.le_refl _)
  · exact key .red cfg.red r.phase (Nat.le_refl _)
  · have hs : ∃ q, r.skipLeading (fadeTable cfg) = { r with phase := q } ∧ r.phase.toNat ≤ q.toNat := by
      unfold Channel.skipLeading
      split
      · exact ⟨_, rfl, skipZeroUp_ge _ _ _⟩
      · exact ⟨_, rfl, Nat.le_refl _⟩
    obtain ⟨q, hq, hle⟩ := hs
    simp only [Channel.walkFade, hq]
    exact key .fade (fadeTable cfg) q hle

/-! ### Byte writes -/

theorem Channel.writeAll_append (r : Channel) (a b : List ChanWrite) :
    r.writeAll (a ++ b) = (r.writeAll a).writeAll b := by
  simp only [Channel.writeAll, List.foldl_append]

theorem Channel.writeAll_dutyWrite? (r : Channel) (c : Option Color) (v : Byte) :
    r.writeAll (dutyWrite? c v) = r.setDuty? c v := by
  rcases c with _ | (_ | _ | _) <;> rfl

theorem Channel.writeAll_finishWrites {a r : Channel} (h : r.endAspect = a.endAspect) :
    a.writeAll r.finishWrites = a.finish := by
  simp only [Channel.finishWrites, Channel.writeAll, List.foldl, Channel.write, Channel.finish, h]

/-- The skip loop's writes leave the phase where the loop ends. -/
theorem Channel.writeAll_skipWrites (t : Table) (n : Nat) (p : Byte) (r : Channel) :
    ({ r with phase := p } : Channel).writeAll (skipWrites t n p) = { r with phase := skipZeroUp t n p } := by
  induction n generalizing p with
  | zero => rfl
  | succ n ih =>
    unfold skipWrites skipZeroUp
    split
    · split
      · exact ih (p + 1)
      · rfl
    · rfl

/-! ### Ranges (10 R21, R23) -/

theorem level_le (v : BitVec 5) : (level v).toNat ≤ 31 := by
  have := v.isLt
  simp only [level, BitVec.toNat_setWidth]
  omega

theorem steadyDuty_le (a : Aspect) (c : Color) : (steadyDuty a c).toNat ≤ 31 := by
  cases a <;> cases c <;> decide

/-- The effective target is a base aspect (41 R128). -/
theorem effective_isBase (a : Aspect) (f : Bool) : isBase (effective a f) := by
  cases a <;> cases f <;> rfl

/-- An in-range byte write keeps a record in range. -/
theorem Channel.write_inRange {r : Channel} {w : ChanWrite} (h : r.InRange) (hw : w.InRange) :
    (r.write w).InRange := by
  obtain ⟨a, b, c, d, e, f⟩ := h
  cases w
  · exact ⟨a, b, c, d, e, hw⟩
  · exact ⟨a, b, c, hw, e, f⟩
  · exact ⟨a, b, c, d, hw, f⟩
  · exact ⟨hw, b, c, d, e, f⟩
  · exact ⟨a, hw, c, d, e, f⟩
  · exact ⟨a, b, hw, d, e, f⟩

/-- The debouncer's second count bit stays 0 (40 R102). -/
theorem State.debounce_clockB {s : State} (raw : Byte) (h : s.clockB = 0) : (s.debounce raw).clockB = 0 := by
  apply BitVec.eq_of_getLsbD_eq
  intro i hi
  simp only [State.debounce, BitVec.getLsbD_ofFnLE, State.lane, h, laneSample, hi, dite_true]
  cases raw.getLsbD i <;> cases s.debState.getLsbD i <;> cases s.clockA.getLsbD i <;> simp [laneCount]

end Sys2Proof.Machine
end

