-- ==== Sys2Proof/Laws/Timers.lean ====
section
/-! SUPPORT. The counters and flags of 42 R173 after one TICK, one lemma each. -/

namespace Sys2Proof.Machine

@[simp] theorem State.tick_cfg (s : State) : s.tick.cfg = s.cfg := by simp [State.tick]

@[simp] theorem State.tick_pwmPhase (s : State) : s.tick.pwmPhase = s.pwmPhase + 1 := by
  simp only [State.tick, State.bumpFlasher_pwmPhase, State.bumpMillis_pwmPhase]
  rfl

@[simp] theorem State.tick_updateFlag (s : State) :
    s.tick.updateFlag = (s.updateFlag || (s.pwmPhase + 1 == 0)) := by
  simp only [State.tick, State.bumpFlasher_updateFlag, State.bumpMillis_updateFlag]
  rfl

/-- The millisecond accumulator and counter after the increment. -/
theorem State.bumpMillis_cases (s : State) :
    (s.msAcc + 1 = s.cfg.ticksPerMs ∧ s.bumpMillis.msAcc = 0 ∧ s.bumpMillis.msCount = s.msCount + 1) ∨
      (s.msAcc + 1 ≠ s.cfg.ticksPerMs ∧ s.bumpMillis.msAcc = s.msAcc + 1 ∧
        s.bumpMillis.msCount = s.msCount) := by
  unfold State.bumpMillis
  split
  · next h => exact .inl ⟨h, rfl, rfl⟩
  · next h => exact .inr ⟨h, rfl, rfl⟩

/-- The flasher and its counter after the increment. -/
theorem State.bumpFlasher_cases (s : State) :
    (s.flashCount + 1 = s.cfg.flashToggleTicks ∧ s.bumpFlasher.flashCount = 0 ∧
        s.bumpFlasher.flasher = !s.flasher) ∨
      (s.flashCount + 1 ≠ s.cfg.flashToggleTicks ∧ s.bumpFlasher.flashCount = s.flashCount + 1 ∧
        s.bumpFlasher.flasher = s.flasher) := by
  unfold State.bumpFlasher
  split
  · next h => exact .inl ⟨h, rfl, rfl⟩
  · next h => exact .inr ⟨h, rfl, rfl⟩

/-- The millisecond accumulator and counter after one tick (42 R177). -/
theorem State.tick_millis (s : State) :
    (s.msAcc + 1 = s.cfg.ticksPerMs ∧ s.tick.msAcc = 0 ∧ s.tick.msCount = s.msCount + 1) ∨
      (s.msAcc + 1 ≠ s.cfg.ticksPerMs ∧ s.tick.msAcc = s.msAcc + 1 ∧ s.tick.msCount = s.msCount) := by
  simpa [State.tick] using State.bumpMillis_cases (s.driveAll s.pwmPhase).bumpPhase

/-- The flasher and its counter after one tick (42 R176). -/
theorem State.tick_flasher (s : State) :
    (s.flashCount + 1 = s.cfg.flashToggleTicks ∧ s.tick.flashCount = 0 ∧ s.tick.flasher = !s.flasher) ∨
      (s.flashCount + 1 ≠ s.cfg.flashToggleTicks ∧ s.tick.flashCount = s.flashCount + 1 ∧
        s.tick.flasher = s.flasher) := by
  simpa [State.tick] using State.bumpFlasher_cases (s.driveAll s.pwmPhase).bumpPhase.bumpMillis

/-- What TICK leaves alone. -/
theorem State.tick_keeps (s : State) :
    SameChans s s.tick ∧ SameDebouncer s s.tick ∧ SameRegmap s s.tick ∧ SameLevels s s.tick ∧
      SameModel s s.tick ∧ s.tick.result = s.result ∧ s.tick.regmap = s.regmap := by
  refine ⟨fun k => State.chan_tick s k, ⟨?_, ?_, ?_⟩, fun a => State.readReg_tick s a, ⟨?_, ?_⟩,
    ⟨?_, ?_, ?_, ?_, ?_⟩, ?_, ?_⟩ <;> simp [State.tick]

/-- The lines after one tick: every channel driven at the phase before the increment (42 R173, R174). -/
theorem State.tick_out (s : State) (k : Ch) : s.tick.out.get k = (s.chan k).lines s.pwmPhase := by
  simp only [State.tick, State.bumpFlasher_out, State.bumpMillis_out]
  exact Bank.get_ofFn _ _

/-- One line of a driven channel. -/
theorem Channel.lines_line (r : Channel) (p : BitVec 5) (c : Color) :
    (r.lines p).line c = some (lineLevel (r.duty c) p r.optInvert) := by
  cases c <;> rfl

end Sys2Proof.Machine
end

