-- ==== Sys2Proof/Laws/Units.lean ====
section
/-! SUPPORT. What one unit of an ADVANCE can do (41 R148, 43 R197): its one write and nothing else; from a record in
range, its write is in range, and the phase stands at 32 only at a point past a rise of the phase. -/

namespace Sys2Proof.Machine

/-- Everything `advanceUnit` does: the unit's own write, and where the main loop stands (43 R197). -/
theorem State.advanceUnit_doesUnit (s : State) (k : Ch) (u : AdvanceUnit) : s.DoesUnit k u (s.advanceUnit k u) := by
  have other : SameOtherChans k s (s.advanceUnit k u) := fun j hj => State.chan_advanceUnit_ne s u hj
  cases u <;>
    exact ⟨⟨by simp, rfl⟩, other, ⟨rfl, rfl, rfl, rfl, rfl, rfl⟩, ⟨rfl, rfl, rfl⟩, fun _ => rfl, ⟨rfl, rfl⟩,
      fun _ => rfl, ⟨rfl, rfl, rfl, rfl, rfl⟩, rfl⟩

/-- A unit of an ADVANCE that keeps the record `r` in range, with a phase of 32 only at a late point. -/
def AdvanceUnit.Good (r : Channel) (u : AdvanceUnit) : Prop :=
  match u with
  | .write w p => w.InRange ∧ p.InRange ∧ ((r.write w).phase.toNat = 32 → p.late = true)
  | .last w => w.InRange ∧ (r.write w).phase.toNat ≠ 32
  | .done => r.phase.toNat ≠ 32

/-- The arriving colour's duty written, the ADVANCE goes on with what follows it. -/
theorem Channel.unitAt_afterArrival (cfg : Config) (w : Route) (e : Entry) (r : Channel) :
    r.unitAt cfg (afterArrival w e) = r.afterArrivalUnit w e := by
  cases w <;> rfl

theorem Channel.phase_succ_le {r : Channel} (h : r.phase.toNat < 32) : (r.phase + 1).toNat ≤ 32 := by
  rw [BitVec.toNat_add, show (1 : Byte).toNat = 1 from rfl]
  omega

theorem Channel.settleUnit_good {r : Channel} (h : r.phase.toNat ≠ 32) : r.settleUnit.Good r := by
  unfold Channel.settleUnit
  split
  · exact ⟨steadyDuty_le _ _, trivial, fun g => absurd g h⟩
  · exact h

theorem Channel.finishUnit_good {r : Channel} (h : isBase r.endAspect) : r.finishUnit.Good r :=
  ⟨h, trivial, fun _ => rfl⟩

theorem Channel.exhaustedUnit_good (cfg : Config) (w : Route) {r : Channel} (h : isBase r.endAspect) :
    (r.exhaustedUnit cfg w).Good r := by
  have := (tableLen_bounds (routeTable cfg w)).2
  unfold Channel.exhaustedUnit
  split
  · exact finishUnit_good h
  · exact settleUnit_good (by omega)

theorem Channel.phaseUnit_good (w : Route) {r : Channel} (h : r.phase.toNat < 32) : (r.phaseUnit w).Good r :=
  ⟨phase_succ_le h, trivial, fun _ => rfl⟩

theorem Channel.dutyUnit_good (c : Color) (v : BitVec 5) {p : AdvancePoint} {r : Channel} (h : r.phase.toNat ≠ 32)
    (hp : p.InRange) : AdvanceUnit.Good r (.write (dutyWrite c (level v)) p) := by
  have := level_le v
  cases c <;> exact ⟨this, hp, fun g => absurd g h⟩

theorem Channel.afterArrivalUnit_good (w : Route) (e : Entry) {r : Channel} (h : r.phase.toNat < 32) :
    (r.afterArrivalUnit w e).Good r := by
  cases w
  · exact dutyUnit_good .red e.red (Nat.ne_of_lt h) trivial
  · exact phaseUnit_good _ h
  · exact phaseUnit_good _ h

theorem Channel.arrivalUnit_good (w : Route) (e : Entry) {r : Channel} (h : r.phase.toNat < 32) :
    (r.arrivalUnit w e).Good r := by
  unfold Channel.arrivalUnit
  split
  · exact dutyUnit_good _ _ (Nat.ne_of_lt h) (by cases w <;> trivial)
  · exact afterArrivalUnit_good w e h

theorem Channel.departureUnit_good (w : Route) (e : Entry) {r : Channel} (h : r.phase.toNat < 32) :
    (r.departureUnit w e).Good r := by
  unfold Channel.departureUnit
  split
  · exact dutyUnit_good _ _ (Nat.ne_of_lt h) trivial
  · exact arrivalUnit_good w e h

theorem Channel.entryUnit_good (cfg : Config) (w : Route) {r : Channel} (h : isBase r.endAspect) :
    (r.entryUnit cfg w).Good r := by
  have zero : ∀ p : AdvancePoint, p.InRange → r.phase.toNat < 32 → AdvanceUnit.Good r (.write (.redDuty 0) p) :=
    fun p hp hr => ⟨Nat.zero_le _, hp, fun g => absurd g (Nat.ne_of_lt hr)⟩
  unfold Channel.entryUnit
  split
  · exact finishUnit_good h
  · next e he =>
    have hr : r.phase.toNat < 32 := Nat.lt_of_lt_of_le (tableGet_lt he) (tableLen_bounds _).2
    cases w <;> simp only
    · exact departureUnit_good _ _ hr
    · exact zero _ trivial hr
    · split
      · exact finishUnit_good h
      · exact zero _ trivial hr

theorem Channel.skipUnit_good (cfg : Config) {r : Channel} (h : isBase r.endAspect) : (r.skipUnit cfg).Good r := by
  unfold Channel.skipUnit
  split
  · exact entryUnit_good _ _ h
  · next e he =>
    split
    · exact ⟨phase_succ_le (Nat.lt_of_lt_of_le (tableGet_lt he) (tableLen_bounds _).2), trivial, fun _ => rfl⟩
    · exact entryUnit_good _ _ h

theorem Channel.dispatchUnit_good (cfg : Config) {r : Channel} (h : isBase r.endAspect) (hp : r.phase.toNat ≠ 32) :
    (r.dispatchUnit cfg).Good r := by
  unfold Channel.dispatchUnit
  split
  · exact settleUnit_good hp
  · split
    · exact entryUnit_good _ _ h
    · exact entryUnit_good _ _ h
    · split
      · exact skipUnit_good _ h
      · exact entryUnit_good _ _ h

/-- The first unit of an ADVANCE. -/
theorem Channel.beginUnit_good (cfg : Config) (f : Bool) {r : Channel} (h : isBase r.endAspect)
    (hp : r.phase.toNat ≠ 32) : (r.beginUnit cfg f).Good r := by
  unfold Channel.beginUnit
  split
  · exact ⟨Nat.zero_le _, effective_isBase _ _, fun g => absurd (show (0 : Byte).toNat = 32 from g) (by decide)⟩
  · exact dispatchUnit_good _ h hp

/-- The unit after a point between two byte writes. -/
theorem Channel.unitAt_good (cfg : Config) {p : AdvancePoint} {r : Channel} (h : r.InRange) (hi : p.InRange)
    (hp : r.phase.toNat = 32 → p.late = true) : (r.unitAt cfg p).Good r := by
  have hb : isBase r.endAspect := h.2.2.2.2.1
  have hr : p.late = false → r.phase.toNat < 32 := fun hl =>
    Nat.lt_of_le_of_ne h.2.2.2.2.2 fun he => by simp [hp he] at hl
  cases p
  · exact ⟨hi, trivial, fun g => absurd g (Nat.ne_of_lt (hr rfl))⟩
  · exact dispatchUnit_good _ hb (Nat.ne_of_lt (hr rfl))
  · exact skipUnit_good _ hb
  · exact ⟨Nat.zero_le _, trivial, fun g => absurd g (Nat.ne_of_lt (hr rfl))⟩
  · exact ⟨Nat.zero_le _, trivial, fun g => absurd g (Nat.ne_of_lt (hr rfl))⟩
  · exact departureUnit_good _ _ (hr rfl)
  · exact arrivalUnit_good _ _ (hr rfl)
  · exact dutyUnit_good .red _ (Nat.ne_of_lt (hr rfl)) trivial
  · exact phaseUnit_good _ (hr rfl)
  · exact exhaustedUnit_good _ _ hb
  · exact ⟨Nat.zero_le _, trivial, fun g => absurd (show (0 : Byte).toNat = 32 from g) (by decide)⟩
  · exact settleUnit_good (Nat.ne_of_lt (hr rfl))
  · exact ⟨steadyDuty_le _ _, trivial, fun g => absurd g (Nat.ne_of_lt (hr rfl))⟩
  · exact ⟨steadyDuty_le _ _, Nat.ne_of_lt (hr rfl)⟩

end Sys2Proof.Machine
end

