-- ==== Sys2Proof/Machine/Assembler.lean ====
section
/-! DEFINITION. The assembler syntax (30 R81) and its pseudo-instructions (30 R82, D31): one line of text to the
operations it stands for, whose words `encode` gives. No step reads text (log entry 26). -/

namespace Sys2Proof.Machine

/-- The code of an aspect: its place in the list of 30 R70. -/
def aspectCode (a : Aspect) : Byte :=
  match a with
  | .off => 0
  | .green => 1
  | .flashGreen => 2
  | .yellow => 3
  | .flashYellow => 4
  | .red => 5
  | .flashRed => 6
  | .lunar => 7

/-- A pseudo-instruction (30 R82). -/
inductive Pseudo where
  | hostAspect (k : Ch) (code : Byte)
  | hostOption (k : Ch) (b : Byte)
  | advanceN (k : Ch) (flasher : Bool) (n : Nat)
  | cycle
  | cycleService
  deriving DecidableEq, Repr, Inhabited

/-- The operations that a pseudo-instruction expands to (30 R82). -/
def expandPseudo (p : Pseudo) : List Instr :=
  match p with
  | .hostAspect k code => [.hostWrite (BitVec.ofNat 8 k.val) code]
  | .hostOption k b => [.hostWrite (BitVec.ofNat 8 (8 + k.val)) b]
  | .advanceN k f n => List.replicate n (.advance k f)
  | .cycle => List.replicate 32 .tick
  | .cycleService => List.replicate 32 .tick ++ [.service]

/-! ### Tokens -/

/-- A token put before the tokens after it, if it has a character. -/
def pushToken (cur : List Char) (rest : List (List Char)) : List (List Char) :=
  match cur with
  | [] => rest
  | c :: cs => (c :: cs).reverse :: rest

/-- The tokens of a line: words between blanks, and commas; `#` begins a comment. `cur` is the word being read, last
character first. -/
def tokensFrom (cur : List Char) (line : List Char) : List (List Char) :=
  match line with
  | [] => pushToken cur []
  | c :: rest =>
    if c = '#' then pushToken cur []
    else if c = ' ' then pushToken cur (tokensFrom [] rest)
    else if c = ',' then pushToken cur ([','] :: tokensFrom [] rest)
    else tokensFrom (c :: cur) rest

/-- The value of a digit, of 16 at most. -/
def digitValue (c : Char) : Option Nat :=
  if 48 ≤ c.toNat ∧ c.toNat ≤ 57 then some (c.toNat - 48)
  else if 65 ≤ c.toNat ∧ c.toNat ≤ 70 then some (c.toNat - 55)
  else if 97 ≤ c.toNat ∧ c.toNat ≤ 102 then some (c.toNat - 87)
  else none

/-- The value of digits in base `base` after `acc`. -/
def digitsValue (base acc : Nat) (cs : List Char) : Option Nat :=
  match cs with
  | [] => some acc
  | c :: rest =>
    match digitValue c with
    | some d => if d < base then digitsValue base (acc * base + d) rest else none
    | none => none

/-! ### Operands -/

/-- A decimal number below `limit`. -/
def decimalBelow (limit : Nat) (cs : List Char) : Option Nat :=
  match cs with
  | [] => none
  | c :: rest =>
    match digitsValue 10 0 (c :: rest) with
    | some n => if n < limit then some n else none
    | none => none

/-- A byte `0xNN`. -/
def byteOperand (cs : List Char) : Option Byte :=
  match cs with
  | ['0', 'x', a, b] => (digitsValue 16 0 [a, b]).map (BitVec.ofNat 8)
  | _ => none

/-- A channel `ch<k>`. -/
def channelOperand (cs : List Char) : Option Ch :=
  match cs with
  | 'c' :: 'h' :: rest => (decimalBelow 8 rest).map (Fin.ofNat 8)
  | _ => none

/-- A bit, 0 or 1. -/
def bitOperand (cs : List Char) : Option Bool :=
  match cs with
  | ['0'] => some false
  | ['1'] => some true
  | _ => none

/-- An aspect by its name, else none. -/
def aspectName (cs : List Char) : Option Aspect :=
  match cs with
  | ['o', 'f', 'f'] => some .off
  | ['g', 'r', 'e', 'e', 'n'] => some .green
  | ['f', 'l', 'a', 's', 'h', '_', 'g', 'r', 'e', 'e', 'n'] => some .flashGreen
  | ['y', 'e', 'l', 'l', 'o', 'w'] => some .yellow
  | ['f', 'l', 'a', 's', 'h', '_', 'y', 'e', 'l', 'l', 'o', 'w'] => some .flashYellow
  | ['r', 'e', 'd'] => some .red
  | ['f', 'l', 'a', 's', 'h', '_', 'r', 'e', 'd'] => some .flashRed
  | ['l', 'u', 'n', 'a', 'r'] => some .lunar
  | _ => none

/-- An aspect operand: a name assembles to its code, a byte is placed unchanged (30 R81). -/
def aspectOperand (cs : List Char) : Option Byte :=
  match aspectName cs with
  | some a => some (aspectCode a)
  | none => byteOperand cs

/-! ### Lines -/

/-- The names that begin a line. -/
inductive OpName where
  | reset | setTarget | advance | drive | tick | service | poll | debInit | debSample | debState
  | hostWrite | hostBusy | hostSense | setOptions
  | hostAspect | hostOption | advanceN | cycle | cycleService
  deriving DecidableEq, Repr, Inhabited

/-- The name a token is. -/
def opName (cs : List Char) : Option OpName :=
  match cs with
  | ['r', 'e', 's', 'e', 't'] => some .reset
  | ['s', 'e', 't', '_', 't', 'a', 'r', 'g', 'e', 't'] => some .setTarget
  | ['a', 'd', 'v', 'a', 'n', 'c', 'e'] => some .advance
  | ['d', 'r', 'i', 'v', 'e'] => some .drive
  | ['t', 'i', 'c', 'k'] => some .tick
  | ['s', 'e', 'r', 'v', 'i', 'c', 'e'] => some .service
  | ['p', 'o', 'l', 'l'] => some .poll
  | ['d', 'e', 'b', '_', 'i', 'n', 'i', 't'] => some .debInit
  | ['d', 'e', 'b', '_', 's', 'a', 'm', 'p', 'l', 'e'] => some .debSample
  | ['d', 'e', 'b', '_', 's', 't', 'a', 't', 'e'] => some .debState
  | ['h', 'o', 's', 't', '_', 'w', 'r', 'i', 't', 'e'] => some .hostWrite
  | ['h', 'o', 's', 't', '_', 'b', 'u', 's', 'y'] => some .hostBusy
  | ['h', 'o', 's', 't', '_', 's', 'e', 'n', 's', 'e'] => some .hostSense
  | ['s', 'e', 't', '_', 'o', 'p', 't', 'i', 'o', 'n', 's'] => some .setOptions
  | ['h', 'o', 's', 't', '_', 'a', 's', 'p', 'e', 'c', 't'] => some .hostAspect
  | ['h', 'o', 's', 't', '_', 'o', 'p', 't', 'i', 'o', 'n'] => some .hostOption
  | ['a', 'd', 'v', 'a', 'n', 'c', 'e', '_', 'n'] => some .advanceN
  | ['c', 'y', 'c', 'l', 'e'] => some .cycle
  | ['c', 'y', 'c', 'l', 'e', '_', 's', 'e', 'r', 'v', 'i', 'c', 'e'] => some .cycleService
  | _ => none

/-- A line without operands. -/
def assembleBare (n : OpName) : Option (List Instr) :=
  match n with
  | .reset => some [.reset]
  | .tick => some [.tick]
  | .service => some [.service]
  | .poll => some [.poll]
  | .debState => some [.debState]
  | .cycle => some (expandPseudo .cycle)
  | .cycleService => some (expandPseudo .cycleService)
  | .setTarget | .advance | .drive | .debInit | .debSample | .hostWrite | .hostBusy | .hostSense | .setOptions
  | .hostAspect | .hostOption | .advanceN => none

/-- A line with one operand. -/
def assembleOne (n : OpName) (x : List Char) : Option (List Instr) :=
  match n with
  | .debInit => (byteOperand x).map fun v => [.debInit v]
  | .debSample => (byteOperand x).map fun v => [.debSample v]
  | .hostBusy => (bitOperand x).map fun l => [.hostBusy l]
  | .hostSense => (byteOperand x).map fun v => [.hostSense v]
  | .reset | .setTarget | .advance | .drive | .tick | .service | .poll | .debState | .hostWrite | .setOptions
  | .hostAspect | .hostOption | .advanceN | .cycle | .cycleService => none

/-- The HOST_WRITE of an address, in the row the address is in (30 R76). -/
def hostWriteAt (a : Nat) (v : Byte) : Instr :=
  if a < 16 then .hostWrite (BitVec.ofNat 8 a) v else .hostWriteUnread (BitVec.ofNat 8 a) v

/-- A line with two operands (30 R81, R82). `host_aspect` takes a number `0xNN` as `set_target` does: DESIGN CHOICE,
since R82 writes `<aspect>` only (log entry 26). -/
def assembleTwo (n : OpName) (x y : List Char) : Option (List Instr) :=
  match n with
  | .setTarget => (channelOperand x).bind fun k => (aspectOperand y).map fun b => [.setTarget k b]
  | .advance => (channelOperand x).bind fun k => (bitOperand y).map fun f => [.advance k f]
  | .drive => (channelOperand x).bind fun k => (decimalBelow 32 y).map fun p => [.drive k (BitVec.ofNat 5 p)]
  | .hostWrite => (decimalBelow 24 x).bind fun a => (byteOperand y).map fun v => [hostWriteAt a v]
  | .setOptions => (channelOperand x).bind fun k => (byteOperand y).map fun b => [.setOptions k b]
  | .hostAspect => (channelOperand x).bind fun k => (aspectOperand y).map fun b => expandPseudo (.hostAspect k b)
  | .hostOption => (channelOperand x).bind fun k => (byteOperand y).map fun b => expandPseudo (.hostOption k b)
  | .reset | .tick | .service | .poll | .debInit | .debSample | .debState | .hostBusy | .hostSense
  | .advanceN | .cycle | .cycleService => none

/-- A line with three operands: `advance_n`. -/
def assembleThree (n : OpName) (x y z : List Char) : Option (List Instr) :=
  match n with
  | .advanceN =>
    (channelOperand x).bind fun k => (bitOperand y).bind fun f =>
      (digitsValue 10 0 z).map fun m => expandPseudo (.advanceN k f m)
  | .reset | .setTarget | .advance | .drive | .tick | .service | .poll | .debInit | .debSample | .debState
  | .hostWrite | .hostBusy | .hostSense | .setOptions | .hostAspect | .hostOption | .cycle | .cycleService => none

/-- The operations of one line; none where the line is not of the grammar of 30 R81 and R82. -/
def assembleLine (line : List Char) : Option (List Instr) :=
  match tokensFrom [] line with
  | [] => some []
  | [n] => (opName n).bind assembleBare
  | [n, x] => (opName n).bind fun o => assembleOne o x
  | [n, x, [','], y] => (opName n).bind fun o => assembleTwo o x y
  | [n, x, [','], y, [','], z] => (opName n).bind fun o => assembleThree o x y z
  | _ => none

/-- The operations of a program, line by line. -/
def assemble (lines : List (List Char)) : Option (List Instr) :=
  match lines with
  | [] => some []
  | l :: rest => (assembleLine l).bind fun a => (assemble rest).map fun b => a ++ b

/-- A program's operation words as items of the schedule (95 §5). -/
def programItems (is : List Instr) : List Item :=
  is.map fun i => .opWord (BitVec.ofNat 24 (encode i))

end Sys2Proof.Machine
end

