-- ==== Sys2Proof/Tests/Slice0.lean ====
section
/-! SUPPORT. Tests: ill-formed terms refused, words written out from the spec's encodings decoded, single operations
on the test parameters of 95_test_vectors.md §1 and §2, and for every statement with hypotheses a state and operands
that meet them. Expected values are the spec's (95 §2 to §4 and the rules' examples). -/

namespace Sys2Proof.Tests

open Sys2Proof Sys2Proof.Machine Sys2Proof.Claims

/-! ### The fixture of 95 §1 and §2 -/

/-- An entry of a fixture table. -/
def ent (down up red : Nat) : Entry := ⟨BitVec.ofNat 5 down, BitVec.ofNat 5 up, BitVec.ofNat 5 red⟩

/-- `FADE_FX`. -/
def fadeFx : Vector Entry 32 :=
  #v[ent 31 0 0, ent 20 0 0, ent 12 0 0, ent 6 0 0, ent 2 0 0, ent 0 0 0, ent 0 1 0, ent 0 2 0,
    ent 0 3 0, ent 0 4 0, ent 0 5 0, ent 0 6 0, ent 0 7 0, ent 0 8 0, ent 0 9 0, ent 0 10 0,
    ent 0 11 0, ent 0 12 0, ent 0 13 0, ent 0 14 0, ent 0 15 0, ent 0 16 0, ent 0 17 0, ent 0 18 0,
    ent 0 19 0, ent 0 20 0, ent 0 22 0, ent 0 24 0, ent 0 26 0, ent 0 28 0, ent 0 30 0, ent 0 31 0]

/-- `RED_FX`. -/
def redFx : Table :=
  ⟨11, #v[ent 24 0 0, ent 12 0 0, ent 4 0 0, ent 0 8 0, ent 0 20 0, ent 0 31 0, ent 0 20 0, ent 0 12 0,
    ent 0 20 0, ent 0 31 0, ent 0 24 0, ent 0 31 0]⟩

/-- `GY_FX`. -/
def gyFx : Table :=
  ⟨11, #v[ent 20 0 0, ent 8 0 4, ent 0 0 16, ent 0 0 31, ent 0 0 24, ent 0 0 12, ent 0 0 24, ent 0 4 12,
    ent 0 12 4, ent 0 24 0, ent 0 31 0, ent 0 31 0]⟩

/-- The test parameters of 95 §1. -/
def fixture : Config where
  fade := fadeFx
  red := redFx
  gy := gyFx
  ticksPerMs := 4
  flashToggleTicks := 2000
  senseAnodeLevel := true
  initSenseByte := 0
  regmapInit := Vector.replicate 24 0
  initBusBusy := false
  initSenseRaw := 0
  granularity := .perWrite

/-- The state of R230 under the test parameters. -/
def s0 : State := State.resetWith fixture

/-- A record `start→end p=phase R/Y/G`, three-lamp, cathode, with the target `end`. -/
def rec (a b : Aspect) (p r y g : Nat) : Channel :=
  ⟨a, b, b, BitVec.ofNat 8 p, BitVec.ofNat 8 r, BitVec.ofNat 8 y, BitVec.ofNat 8 g, false, true⟩

/-- The same in searchlight topology. -/
def recSl (a b : Aspect) (p r y g : Nat) : Channel := { rec a b p r y g with optSearchlight := true }

/-- `s0` with channel 0's record replaced. -/
def at0 (r : Channel) : State := s0.setChan 0 r

/-- `at0 r` holds `r` as channel 0's record, so a hypothesis about `r` is one about the state `at0 r`. -/
theorem test_at0_chan (r : Channel) : (at0 r).chan 0 = r := rfl

/-- `s0` with items placed. -/
def placed (its : List Item) : State := { s0 with sched := its }

/-- The next state, if there is one. -/
def nextOf (o : Host.Outcome State Fault Refusal) : Option State :=
  match o with
  | .next t => some t
  | .fault _ => none
  | .refused _ => none

/-- Channel `k`'s record after one instruction. -/
def chanAfter (i : Instr) (s : State) (k : Ch) : Option Channel := (nextOf (exec i s)).map fun t => t.chan k

/-- The route's endpoints, phase and duties of channel 0 after `advance ch0, f`. -/
def adv0 (r : Channel) (f : Bool) : Option (Aspect × Aspect × List Nat) :=
  (chanAfter (.advance 0 f) (at0 r) 0).map fun c =>
    (c.startAspect, c.endAspect, [c.phase.toNat, c.redDuty.toNat, c.yellowDuty.toNat, c.greenDuty.toNat])

/-- The levels of a channel's three lines after one instruction. -/
def linesAfter (i : Instr) (s : State) (k : Ch) : Option Lines := (nextOf (exec i s)).map fun t => t.out.get k

/-- Three known levels. -/
def lv (r y g : Bool) : Option Lines := some ⟨some r, some y, some g⟩

/-! ### Ill-formed terms are refused -/

theorem test_wf_aspectInvalid08 : WellFormed (.aspectInvalid08 0x10) = false := by decide
theorem test_wf_aspectInvalid10 : WellFormed (.aspectInvalid10 0x0F) = false := by decide
theorem test_wf_aspectInvalid20 : WellFormed (.aspectInvalid20 0x40) = false := by decide
theorem test_wf_aspectInvalid40 : WellFormed (.aspectInvalid40 0x80) = false := by decide
theorem test_wf_aspectInvalid80 : WellFormed (.aspectInvalid80 0x7F) = false := by decide
theorem test_wf_optionTopoInvalid2 : WellFormed (.optionTopoInvalid2 0 1) = false := by decide
theorem test_wf_optionTopoInvalid4 : WellFormed (.optionTopoInvalid4 0 3) = false := by decide
theorem test_wf_hostWrite : WellFormed (.hostWrite 16 0) = false := by decide
theorem test_wf_hostWriteUnread : WellFormed (.hostWriteUnread 24 0) = false := by decide

/-- Ill-formed tables (00 R9): empty, 33 entries, a field of 32; a fade table of 31 entries. -/
theorem test_wf_tables :
    acceptTable [] = none ∧ acceptTable (List.replicate 33 (0, 0, 0)) = none ∧
      acceptTable [(0, 32, 0)] = none ∧ acceptFade (List.replicate 31 (0, 0, 0)) = none := by decide

/-! ### Words written out from the spec (30 R70 to R78; 95 §2 and §4.1) -/

/-- 30 R70: the codes 0 to 7. -/
theorem test_decode_aspects :
    decodeTableWord 8 0x00 = some .aspectOff ∧ decodeTableWord 8 0x01 = some .aspectGreen ∧
      decodeTableWord 8 0x02 = some .aspectFlashGreen ∧ decodeTableWord 8 0x03 = some .aspectYellow ∧
      decodeTableWord 8 0x04 = some .aspectFlashYellow ∧ decodeTableWord 8 0x05 = some .aspectRed ∧
      decodeTableWord 8 0x06 = some .aspectFlashRed ∧ decodeTableWord 8 0x07 = some .aspectLunar := by decide

/-- 30 R71: the five ranges above 7, at both ends. -/
theorem test_decode_invalid_aspects :
    decodeTableWord 8 0x08 = some (.aspectInvalid08 0x08) ∧ decodeTableWord 8 0x0F = some (.aspectInvalid08 0x0F) ∧
      decodeTableWord 8 0x10 = some (.aspectInvalid10 0x10) ∧ decodeTableWord 8 0x1F = some (.aspectInvalid10 0x1F) ∧
      decodeTableWord 8 0x2A = some (.aspectInvalid20 0x2A) ∧ decodeTableWord 8 0x3F = some (.aspectInvalid20 0x3F) ∧
      decodeTableWord 8 0x40 = some (.aspectInvalid40 0x40) ∧ decodeTableWord 8 0x7F = some (.aspectInvalid40 0x7F) ∧
      decodeTableWord 8 0x80 = some (.aspectInvalid80 0x80) ∧
      decodeTableWord 8 0xFF = some (.aspectInvalid80 0xFF) := by decide

/-- 30 R72: POL is `b[7:6]`. -/
theorem test_decode_options_pol :
    decode .optionPol 0x81 = .ok (.optionPolCommonAnode 0x01) ∧
      decode .optionPol 0x41 = .ok (.optionPolCommonCathode 0x01) ∧
      decode .optionPol 0x3F = .ok (.optionPolFromSense 0x3F) ∧
      decode .optionPol 0xC3 = .ok (.optionPolInvalid 0x03) := by decide

/-- 30 R72: TOPO is `b[2:0]`. -/
theorem test_decode_options_topo :
    decode .optionTopo 0x80 = .ok (.optionTopoThreeLamp 0x10) ∧
      decode .optionTopo 0xB9 = .ok (.optionTopoSearchlight 0x17) ∧
      decode .optionTopo 0x83 = .ok (.optionTopoInvalid2 0x10 3) ∧
      decode .optionTopo 0x47 = .ok (.optionTopoInvalid4 0x08 7) := by decide

/-- 30 R74 and 95 §2: `GY_FX[2]` packs to 0x4000, `FADE_FX[31]` to 0x03E0; bit 15 must be 0. -/
theorem test_decode_tableEntry :
    decodeTableWord 16 0x4000 = some (.tableEntry 0 0 16) ∧ decodeTableWord 16 0x03E0 = some (.tableEntry 0 31 0) ∧
      decodeTableWord 16 0x0001 = some (.tableEntry 1 0 0) ∧ decodeTableWord 16 0x8000 = none := by decide

/-- 30 R76 and 95 §4.1: the words without operands. -/
theorem test_decode_bare_words :
    decodeTableWord 24 0x000000 = some .reset ∧ decodeTableWord 24 0x400000 = some .tick ∧
      decodeTableWord 24 0x500000 = some .service ∧ decodeTableWord 24 0x600000 = some .poll ∧
      decodeTableWord 24 0x900000 = some .debState := by decide

/-- 30 R76, R78 and 95 §4.1: the words on a channel. -/
theorem test_decode_channel_words :
    decodeTableWord 24 0x10072A = some (.setTarget 7 0x2A) ∧ decodeTableWord 24 0x200301 = some (.advance 3 true) ∧
      decodeTableWord 24 0x30001F = some (.drive 0 31) ∧ decodeTableWord 24 0xD007C3 = some (.setOptions 7 0xC3) := by
  decide

/-- 30 R76 and 95 §4.1: the words with a value. -/
theorem test_decode_value_words :
    decodeTableWord 24 0x7000FF = some (.debInit 0xFF) ∧ decodeTableWord 24 0x800081 = some (.debSample 0x81) ∧
      decodeTableWord 24 0xA00F06 = some (.hostWrite 15 0x06) ∧
      decodeTableWord 24 0xA01700 = some (.hostWriteUnread 23 0x00) ∧
      decodeTableWord 24 0xB00001 = some (.hostBusy true) ∧ decodeTableWord 24 0xC00080 = some (.hostSense 0x80) := by
  decide

/-- 30 R77 and 95 §4.1: the refused words. -/
theorem test_decode_refused_words :
    decode .opWord 0x000001 = .error .argumentNotZero ∧ decode .opWord 0x100805 = .error .channelOutOfRange ∧
      decode .opWord 0x110005 = .error .reservedBits ∧ decode .opWord 0x200002 = .error .argumentNotZero ∧
      decode .opWord 0x300020 = .error .argumentNotZero ∧ decode .opWord 0x400001 = .error .argumentNotZero ∧
      decode .opWord 0x800100 = .error .indexNotZero ∧ decode .opWord 0xA01800 = .error .addressOutOfRange ∧
      decode .opWord 0xE00000 = .error .reservedOpcode ∧ decode .opWord 0xB00002 = .error .argumentNotZero := by
  decide

/-! ### The assembler (30 R81, R82; 95 §5) -/

/-- 30 R81's two examples, and a comment. -/
theorem test_assemble_lines :
    (assembleLine "set_target ch0, red".toList).map (fun is => is.map encode) = some [0x100005] ∧
      (assembleLine "host_write 8, 0x81   # ch0 anode, searchlight".toList).map (fun is => is.map encode) =
        some [0xA00881] ∧
      assembleLine "# comment".toList = some [] ∧ assembleLine "set_target ch8, red".toList = none := by decide

/-- 30 R82's expansions. -/
theorem test_assemble_pseudo :
    (assembleLine "host_aspect ch3, flash_red".toList).map (fun is => is.map encode) = some [0xA00306] ∧
      (assembleLine "host_option ch1, 0x81".toList).map (fun is => is.map encode) = some [0xA00981] ∧
      assembleLine "advance_n ch2, 1, 3".toList = some [.advance 2 true, .advance 2 true, .advance 2 true] ∧
      (assembleLine "cycle_service".toList).map (fun is => is.length) = some 33 := by decide

/-! ### One step each -/

/-- 95 §4.1: the aspect rows, run for channel 3. -/
theorem test_aspect_rows :
    ∀ p ∈ [(Instr.aspectOff, Aspect.off), (.aspectGreen, .green), (.aspectFlashGreen, .flashGreen),
        (.aspectYellow, .yellow), (.aspectFlashYellow, .flashYellow), (.aspectRed, .red),
        (.aspectFlashRed, .flashRed), (.aspectLunar, .lunar)],
      (chanAfter p.1 { s0 with cmdCh := 3 } 3).map (fun c => c.nextAspect) = some p.2 := by decide

/-- 95 §4.1: codes 0x08, 0x2A, 0x80, 0xFF are Off. -/
theorem test_invalid_aspect_rows :
    ∀ i ∈ [Instr.aspectInvalid08 0x08, .aspectInvalid10 0x10, .aspectInvalid20 0x2A, .aspectInvalid40 0x40,
        .aspectInvalid80 0xFF],
      (chanAfter i (at0 (rec .red .red 0 31 0 0)) 0).map (fun c => c.nextAspect) = some .off := by decide

/-- 95 §4.1: the option table, with `s` = 0 here. -/
theorem test_option_rows :
    ∀ p ∈ [(Instr.optionPolCommonAnode 0x01, true, false), (.optionPolCommonCathode 0x00, false, true),
        (.optionPolFromSense 0x00, false, true), (.optionPolInvalid 0x01, true, true),
        (.optionTopoThreeLamp 0x10, false, false), (.optionTopoSearchlight 0x17, true, false),
        (.optionTopoInvalid2 0x18 3, false, true), (.optionTopoInvalid4 0x08 7, false, true)],
      (chanAfter p.1 s0 0).map (fun c => (c.optSearchlight, c.optInvert)) = some p.2 := by decide

/-- 41 R133's example: `GY_FX[2]` on a searchlight Green to Yellow at phase 2. -/
theorem test_tableEntry :
    chanAfter (.tableEntry 0 0 16) (at0 (recSl .green .yellow 2 4 0 8)) 0 = some (recSl .green .yellow 3 16 0 0) := by
  decide

/-- 70 R230, R231: RESET forgets the channels and keeps the host's level. -/
theorem test_reset :
    (nextOf (exec .reset { at0 (rec .red .green 9 1 2 3) with busBusy := true, updateFlag := true })).map
      (fun t => (t.chan 0, t.updateFlag, t.busBusy)) = some (rec .off .off 0 0 0 0, false, true) := by decide

/-- D-S1. -/
theorem test_setTarget :
    (chanAfter (.setTarget 2 0x99) (s0.setChan 2 (rec .red .red 0 31 0 0)) 2).map (fun c => c.nextAspect) =
      some .off := by decide

/-- D-S2. -/
theorem test_setOptions :
    (chanAfter (.setOptions 5 0x81) s0 5).map (fun c => (c.optSearchlight, c.optInvert)) = some (true, false) := by
  decide

/-- D-S3. -/
theorem test_setOptions_from_sense :
    (chanAfter (.setOptions 0 0x00) { s0 with debState := 0x01 } 0).map (fun c => c.optInvert) = some false := by
  decide

/-- Single calls of the walks D-W1, D-W2, D-W4, D-W5, D-W6 and D-W12. -/
theorem test_advance_walks :
    adv0 { rec .off .off 0 0 0 0 with nextAspect := .red } false = some (.off, .red, [7, 1, 0, 0]) ∧
      adv0 (rec .red .off 5 2 0 0) false = some (.off, .off, [0, 0, 0, 0]) ∧
      adv0 (recSl .red .green 3 4 0 0) false = some (.red, .green, [4, 0, 0, 8]) ∧
      adv0 (recSl .green .yellow 7 24 0 0) false = some (.green, .yellow, [8, 12, 4, 0]) ∧
      adv0 (rec .green .yellow 31 0 30 0) false = some (.yellow, .yellow, [0, 0, 31, 0]) ∧
      adv0 (recSl .lunar .red 0 0 0 0) false = some (.lunar, .red, [1, 0, 0, 0]) := by decide

/-- D-A2, D-A3, D-A4, D-F1 (call 1), D-T1, D-T2. -/
theorem test_advance_corners :
    adv0 (rec .red .red 0 3 7 0) false = some (.red, .red, [0, 31, 0, 0]) ∧
      adv0 (rec .green .red 40 9 9 9) false = some (.red, .red, [0, 31, 0, 0]) ∧
      adv0 { rec .off .off 0 0 0 0 with nextAspect := .flashGreen } false = some (.off, .off, [0, 0, 0, 0]) ∧
      adv0 { rec .off .off 0 0 0 0 with nextAspect := .flashGreen } true = some (.off, .green, [7, 0, 0, 1]) ∧
      adv0 (recSl .green .red 5 0 0 2) false = some (.green, .red, [6, 31, 0, 0]) ∧
      adv0 (recSl .green .red 20 14 0 0) false = some (.red, .red, [0, 31, 0, 0]) := by decide

/-- 95 §4.4, anode. -/
theorem test_drive :
    linesAfter (.drive 0 4) (at0 { rec .red .red 0 5 0 0 with optInvert := false }) 0 = lv true false false ∧
      linesAfter (.drive 0 5) (at0 { rec .red .red 0 5 0 0 with optInvert := false }) 0 = lv false false false := by
  decide

/-- 95 §4.4, cathode: a lit phase is low, and duty 31 is dark at phase 31. -/
theorem test_drive_inverted :
    linesAfter (.drive 0 0) (at0 (rec .red .red 0 31 0 0)) 0 = lv false true true ∧
      linesAfter (.drive 0 31) (at0 (rec .red .red 0 31 0 0)) 0 = lv true true true := by decide

/-- D-K1. -/
theorem test_tick_first :
    linesAfter .tick s0 7 = lv true true true ∧
      (nextOf (exec .tick s0)).map (fun t => (t.pwmPhase, t.msAcc, t.flashCount, t.updateFlag)) =
        some (1, 1, 1, false) := by decide

/-- The last tick of D-K5 and the wrap of D-K4: counters at their ends. -/
theorem test_tick_wraps :
    (nextOf (exec .tick { s0 with pwmPhase := 31, msAcc := 3, msCount := 7, flashCount := 1999 })).map
      (fun t => (t.pwmPhase, t.updateFlag, t.msAcc, t.msCount, t.flashCount, t.flasher)) =
      some (0, true, 0, 8, 0, true) := by decide

/-- D-K6's first SERVICE, on channel 0. -/
theorem test_service :
    (nextOf (exec .service { at0 { rec .off .off 0 0 0 0 with nextAspect := .red } with updateFlag := true })).map
      (fun t => (t.updateFlag, (t.chan 0).phase, (t.chan 0).redDuty, (t.chan 1).phase)) =
      some (false, 7, 1, 0) := by decide

/-- D-P5. -/
theorem test_service_without_flag : nextOf (exec .service s0) = some s0 := by decide

/-- D-P1. -/
theorem test_poll :
    (chanAfter .poll { s0 with regmap := [(0, 0x05), (8, 0x81)] } 0).map
      (fun c => (c.nextAspect, c.optSearchlight, c.optInvert)) = some (.red, true, false) := by decide

/-- D-P4 (and D-P2 for the level): the second POLL that sees the change uses it. -/
theorem test_poll_sense :
    (nextOf (exec .poll { s0 with senseRaw := 0x01, clockA := 0x01 })).map
        (fun t => (t.debState, t.clockA, (t.chan 0).optInvert)) = some (0x01, 0x00, false) ∧
      (chanAfter .poll { s0 with busBusy := true, regmap := [(0, 0x05), (8, 0x81)] } 0) =
        some (rec .off .off 0 0 0 0) := by decide

/-- 40 R101's example. -/
theorem test_debInit :
    (nextOf (exec (.debInit 0x01) { s0 with clockA := 0xFF, clockB := 0x80 })).map
      (fun t => (t.debState, t.clockA, t.clockB)) = some (0x01, 0, 0) := by decide

/-- D-B3b. -/
theorem test_debSample_flips :
    (nextOf (exec (.debSample 0x01) { s0 with clockA := 0x01 })).map
      (fun t => (t.result, t.debState, t.clockA, t.clockB)) = some (0x01, 0x01, 0x00, 0x00) := by decide

/-- D-B6b: lane 7 flips, lane 0's count clears. -/
theorem test_debSample_lanes :
    (nextOf (exec (.debSample 0x80) { s0 with clockA := 0x81 })).map
      (fun t => (t.result, t.debState, t.clockA)) = some (0x80, 0x80, 0x00) := by decide

/-- D-B7. -/
theorem test_debState :
    (nextOf (exec .debState { s0 with debState := 0x80 })).map (fun t => (t.result, t.debState)) =
      some (0x80, 0x80) := by decide

/-- D-H1. -/
theorem test_hostWrite :
    (nextOf (exec (.hostWrite 3 0x06) s0)).map (fun t => (t.readReg 3, t.readReg 4, (t.chan 3).nextAspect)) =
      some (0x06, 0x00, .off) := by decide

/-- Writing back what an unlisted byte reads as removes the cell. -/
theorem test_hostWriteUnread :
    (nextOf (exec (.hostWriteUnread 23 0xFF) s0)).map (fun t => t.regmap) = some [(23, 0xFF)] ∧
      (nextOf (exec (.hostWriteUnread 23 0x00) { s0 with regmap := [(2, 1), (23, 0xFF)] })).map
        (fun t => t.regmap) = some [(2, 1)] := by decide

theorem test_hostBusy : (nextOf (exec (.hostBusy true) s0)).map (fun t => t.busBusy) = some true := by decide

theorem test_hostSense : (nextOf (exec (.hostSense 0x81) s0)).map (fun t => t.senseRaw) = some 0x81 := by decide

/-! ### The step -/

/-- A word placed by `withFetchWord` is what the next step runs, and it is gone after it. -/
theorem test_step_runs_the_word :
    (nextOf (step (s0.withFetchWord 24 0x100005))).map (fun t => ((t.chan 0).nextAspect, t.sched)) =
        some (.red, []) ∧
      (nextOf (step (s0.withFetchWord 8 0x07))).map (fun t => (t.chan 0).nextAspect) = some .lunar := by decide

/-- S1 and S2 of the main loop's SERVICE (43 R193). -/
theorem test_step_main_loop :
    (nextOf (step { placed [.agent (.main false)] with updateFlag := true })).map (fun t => t.main) =
        some .serviceClear ∧
      (nextOf (step { placed [.agent (.main false)] with updateFlag := true, main := .serviceClear })).map
        (fun t => (t.main, t.updateFlag)) = some (.advance 0, false) := by decide

/-- 41 R148: the first byte write of the ADVANCE that begins Off to Red is `phase`, then `end_aspect`. -/
theorem test_step_byte_writes :
    (nextOf (step { placed [.agent (.main false)] with
        main := .advance 0, chans := (at0 { rec .off .off 0 0 0 0 with nextAspect := .red }).chans })).map
      (fun t => (t.main, (t.chan 0).phase, (t.chan 0).endAspect)) =
      some (.writing 0 (.beginEnd .red), 0, .off) := by decide

/-- 43 R197 under `per_channel`: the same ADVANCE is one unit, and leaves what the example of 41 R125 says; after channel
0 comes channel 1. -/
theorem test_step_whole_advance :
    (nextOf (step { placed [.agent (.main false)] with
        cfg := { fixture with granularity := .perChannel }, main := .advance 0,
        chans := (at0 { rec .off .off 0 0 0 0 with nextAspect := .red }).chans })).map
      (fun t => (t.main, (t.chan 0).startAspect, (t.chan 0).endAspect, (t.chan 0).phase, (t.chan 0).redDuty)) =
      some (.advance 1, .off, .red, 7, 1) := by decide

/-- 43 R197: the reads before a write are joined to it. The topology that the record has when the walk is chosen picks
the walk (41 R139): its first write is the green duty of `GY_FX[0]`, or the red duty zeroed for `FADE_FX[0]`. -/
theorem test_step_reads_with_its_write :
    (nextOf (step { placed [.agent (.main false)] with
        main := .writing 0 .dispatch, chans := (at0 (recSl .green .yellow 0 9 9 31)).chans })).map
      (fun t => (t.main, (t.chan 0).redDuty, (t.chan 0).greenDuty)) =
        some (.writing 0 (.arrival .gy (ent 20 0 0)), 9, 20) ∧
    (nextOf (step { placed [.agent (.main false)] with
        main := .writing 0 .dispatch, chans := (at0 (rec .green .yellow 0 9 9 31)).chans })).map
      (fun t => (t.main, (t.chan 0).redDuty, (t.chan 0).greenDuty)) =
        some (.writing 0 (.zeroYellow .fade (ent 31 0 0)), 0, 31) := by decide

/-- 30 R82: `host_aspect` with a number (log entry 26). -/
theorem test_assemble_numeric_aspect :
    (assembleLine "host_aspect ch3, 0x2A".toList).map (fun is => is.map encode) = some [0xA0032A] := by decide

/-! ### Witnesses: a state and operands that meet the hypotheses of each statement that has some -/

/-- `s0` with the wrap flag set and a main loop at its start. -/
def sFlag : State := { s0 with updateFlag := true }

/-- A fade table whose up-phases are all 0. -/
def flatFixture : Config := { fixture with fade := Vector.replicate 32 (ent 0 0 0) }

theorem test_witness_DecodeOfEncodeGivesInstruction :
    WellFormed (.hostWriteUnread 23 0) = true ∧ WellFormed (.hostWrite 15 0xFF) = true ∧
      WellFormed (.optionTopoInvalid4 0x1F 7) = true := by decide

theorem test_witness_AcceptedOperationWordReencodes :
    decode .opWord (0x200301#24).toNat = .ok (.advance 3 true) := by decide

/-- Both directions of the equivalence: a word that is refused and one that is not. -/
theorem test_witness_OperationWordRefusedExactlyAsRuled :
    decode .opWord (0xB00002#24).toNat = .error .argumentNotZero ∧
      decode .opWord (0xB00001#24).toNat = .ok (.hostBusy true) := by decide

theorem test_witness_OptionRowsSetBothOptions :
    WellFormed (.optionTopoInvalid2 0x18 2) = true ∧ WellFormed (.optionTopoInvalid2 0 3) = true ∧
      WellFormed (.optionTopoInvalid4 0 4) = true := by decide

theorem test_witness_StepRunsTheScheduledWord :
    (placed [.opWord 0x400000]).sched = [.opWord 0x400000] ∧
      decode .opWord (0x400000#24).toNat = .ok .tick := by decide

theorem test_witness_StepRunsTheScheduledByteForItsChannel :
    ((placed [.aspectByte 7 5]).sched = [.aspectByte 7 5] ∧ decode .aspectByte (5#8).toNat = .ok .aspectRed) ∧
      ((placed [.optionPol 1 0x81]).sched = [.optionPol 1 0x81] ∧
        decode .optionPol (0x81#8).toNat = .ok (.optionPolCommonAnode 1)) ∧
      ((placed [.optionTopo 1 0x81]).sched = [.optionTopo 1 0x81] ∧
        decode .optionTopo (0x81#8).toNat = .ok (.optionTopoSearchlight 0x10)) ∧
      ((placed [.tableEntry 2 0x03E0]).sched = [.tableEntry 2 0x03E0] ∧
        decode .tableEntry (0x03E0#16).toNat = .ok (.tableEntry 0 31 0)) := by decide

/-- The first disjunct of the hypothesis, for an item placed in the schedule, at each agent's step. -/
theorem test_witness_StepOfAnAgent_placed :
    ∀ a ∈ [AgentStep.tick, .main true, .hostWrite 15 1, .hostWrite 16 1, .hostBusy true, .hostSense 9],
      (placed [.agent a]).sched = .agent a :: s0.sched ∧ s0 = { placed [.agent a] with sched := s0.sched } := by
  decide

/-- The second disjunct: nothing placed, whatever the free choice is. -/
theorem test_witness_StepOfAnAgent_free :
    ∃ (u : State) (a : AgentStep), s0.sched = [] ∧ Config.freeAgent s0.choice = a ∧
      u = { s0 with choice := s0.choice + 1 } := ⟨_, _, rfl, rfl, rfl⟩

theorem test_witness_MalformedWordHasNoStep :
    ((placed [.opWord 0xE00000]).sched = [.opWord 0xE00000] ∧
        decode .opWord (0xE00000#24).toNat = .error .reservedOpcode) ∧
      ((placed [.tableEntry 0 0x8000]).sched = [.tableEntry 0 0x8000] ∧
        decode .tableEntry (0x8000#16).toNat = .error .entryBit15) := by decide

/-- Lengths of no format, beside those of the formats. -/
theorem test_witness_MalformedWordHasNoStep_length :
    ∀ n ∈ [0, 7, 9, 12, 15, 17, 23, 25, 32], n ≠ 8 ∧ n ≠ 16 ∧ n ≠ 24 := by decide

theorem test_witness_EveryStepKeepsTheStateGood :
    (placed [.agent .tick]).Inv ∧ step (placed [.agent .tick]) = .next s0.tick := by
  exact ⟨⟨fun k => ⟨by revert k; decide, fun h => absurd h (by revert k; decide)⟩, trivial, by decide, by decide, rfl,
    rfl⟩, rfl⟩

/-- The same with a phase of 32, inside an ADVANCE that has exhausted its table and not yet ended the transition. -/
theorem test_witness_EveryStepKeepsTheStateGood_late :
    ({ at0 (rec .green .red 32 31 0 0) with main := .writing 0 (.exhausted .fade) } : State).Inv := by
  refine ⟨fun k => ⟨?_, fun h => ?_⟩, trivial, by decide, by decide, rfl, rfl⟩
  · revert k; decide
  · exact ⟨by revert k; decide, rfl⟩

theorem test_witness_EveryOperationLeavesChannelsAtRest :
    (∀ k : Ch, (at0 (rec .green .red 31 30 0 0)).chan k |>.AtRest) ∧
      exec (.advance 0 false) (at0 (rec .green .red 31 30 0 0)) =
        .next ((at0 (rec .green .red 31 30 0 0)).advance 0 false) := by
  exact ⟨by decide, rfl⟩

theorem test_witness_NoOperationTrapsFaultsOrStops : WellFormed (.aspectInvalid08 0x0F) = true := by decide

theorem test_witness_NoStepWritesTheTables :
    step (placed [.agent (.main false)]) = .next s0.unitS1 := rfl

/-- One operation for each clause: all but the second, the fifth and the ninth by `hostBusy`, the second by ADVANCE and
a table entry, the fifth and the ninth (the bus-busy level) by TICK with the flag set. -/
theorem test_witness_EachFieldHasItsWriters :
    exec (.hostBusy true) s0 = .next { s0 with busBusy := true } ∧ Instr.hostBusy true ≠ .reset ∧
      formatOf (.hostBusy true) = .opWord ∧
      exec (.advance 0 true) s0 = .next (s0.advance 0 true) ∧ formatOf (.advance 0 true) = .opWord ∧
      formatOf (.tableEntry 0 0 0) = .tableEntry ∧
      exec .tick sFlag = .next sFlag.tick ∧ sFlag.updateFlag = true := by
  exact ⟨rfl, by decide, rfl, rfl, rfl, rfl, rfl, rfl⟩

/-- At steady state on the target, and off it with a flashing request. -/
theorem test_witness_AdvanceMakesForTheEffectiveTarget :
    ∀ p ∈ [(Aspect.green, true), (.flashRed, true), (.flashRed, false)],
      ((at0 { rec .green .green 0 0 0 31 with nextAspect := p.1 }).chan 0).startAspect =
        ((at0 { rec .green .green 0 0 0 31 with nextAspect := p.1 }).chan 0).endAspect ∧
      (p.1 = .flashRed → targetOf ((at0 { rec .green .green 0 0 0 31 with nextAspect := p.1 }).chan 0).nextAspect p.2 ≠
        ((at0 { rec .green .green 0 0 0 31 with nextAspect := p.1 }).chan 0).endAspect) := by decide

/-- The five steady aspects as ends of an ADVANCE. -/
theorem test_witness_SteadyStateForcesTheDuties :
    ∀ a ∈ [Aspect.off, .red, .yellow, .green],
      (nextOf (exec (.advance 0 false) (at0 (rec .lunar a 40 9 9 9)))).map
        (fun t => ((t.chan 0).startAspect, (t.chan 0).endAspect)) = some (a, a) := by decide

theorem test_witness_LunarIsDark :
    (((at0 (rec .off .lunar 8 0 0 0)).chan 0).startAspect = .off ∧
        ((at0 (rec .off .lunar 8 0 0 0)).chan 0).endAspect = .lunar) ∧
      (((at0 (rec .lunar .lunar 0 0 0 0)).chan 0).startAspect = ((at0 (rec .lunar .lunar 0 0 0 0)).chan 0).endAspect ∧
        ((at0 (rec .lunar .lunar 0 0 0 0)).chan 0).nextAspect = .lunar) := by decide

theorem test_witness_AdvanceIsIdempotentAtSteadyState :
    ((at0 (rec .red .red 0 31 0 0)).chan 0).startAspect = ((at0 (rec .red .red 0 31 0 0)).chan 0).endAspect ∧
      ((at0 (rec .red .red 0 31 0 0)).chan 0).phase = 0 ∧
      effective ((at0 (rec .red .red 0 31 0 0)).chan 0).nextAspect false =
        ((at0 (rec .red .red 0 31 0 0)).chan 0).endAspect ∧
      false = (at0 (rec .red .red 0 31 0 0)).flasher ∧
      ((at0 (rec .red .red 0 31 0 0)).chan 0).endAspect =
        effective ((at0 (rec .red .red 0 31 0 0)).chan 0).nextAspect (at0 (rec .red .red 0 31 0 0)).flasher ∧
      ∀ c ∈ [Color.red, .yellow, .green], ((at0 (rec .red .red 0 31 0 0)).chan 0).duty c =
        steadyDuty ((at0 (rec .red .red 0 31 0 0)).chan 0).endAspect c := by decide

theorem test_witness_TransitionIgnoresTargetAndFlasher :
    ((at0 (rec .green .red 5 0 0 2)).chan 0).startAspect ≠ ((at0 (rec .green .red 5 0 0 2)).chan 0).endAspect := by
  decide

/-- The phase at the end of the searchlight's table, the first value of the clause. -/
theorem test_witness_PhasePastTheTableEndsTheTransition :
    ((at0 (recSl .green .red 12 31 0 0)).chan 0).startAspect ≠ ((at0 (recSl .green .red 12 31 0 0)).chan 0).endAspect ∧
      tableLen (activeTable s0.cfg ((at0 (recSl .green .red 12 31 0 0)).chan 0)) =
        ((at0 (recSl .green .red 12 31 0 0)).chan 0).phase.toNat := by decide

/-- `ch[0]` departing from Off over a table without up-phases. -/
def sFlat : State := (State.resetWith flatFixture).setChan 0 (rec .off .red 0 0 0 0)

/-- The skip loop runs to the end of a table without up-phases. -/
theorem test_witness_PhasePastTheTableEndsTheTransition_skip :
    (sFlat.chan 0).startAspect ≠ (sFlat.chan 0).endAspect ∧ (sFlat.chan 0).startAspect = .off ∧
      ∀ (q : Nat) (e : Entry), (sFlat.chan 0).phase.toNat ≤ q →
        tableGet (fadeTable sFlat.cfg) q = some e → e.up = 0 := by
  refine ⟨by decide, rfl, fun q e _ h => ?_⟩
  have hm : e ∈ Vector.replicate 32 (ent 0 0 0) := Vector.mem_of_getElem? h
  rw [Vector.mem_replicate] at hm
  rw [hm.2]
  rfl

/-- Both directions, at the first entry and at the last. -/
theorem test_witness_ThroughRedStep :
    ∀ p ∈ [0, 11], tableGet s0.cfg.gy ((at0 (recSl .green .yellow p 0 0 31)).chan 0).phase.toNat = gyFx.2[p]? ∧
      (gyFx.2[p]?).isSome = true ∧ ((at0 (recSl .yellow .green p 0 31 0)).chan 0).optSearchlight = true ∧
      ((at0 (recSl .green .yellow p 0 0 31)).chan 0).startAspect = .green ∧
      ((at0 (recSl .yellow .green p 0 31 0)).chan 0).startAspect = .yellow := by decide

theorem test_witness_InvolvingRedStep :
    ∀ r ∈ [recSl .red .green 0 31 0 0, recSl .lunar .red 11 0 0 0],
      r.optSearchlight = true ∧ r.startAspect ≠ r.endAspect ∧ isBase r.startAspect ∧ isBase r.endAspect ∧
        r.startAspect ≠ .off ∧ r.endAspect ≠ .off ∧ (r.startAspect = .red ∨ r.endAspect = .red) ∧
        (tableGet fixture.red r.phase.toNat).isSome = true := by decide

/-- Not from Off: each of the routes to the fade table, at its last entry. -/
theorem test_witness_FadeStep :
    ∀ r ∈ [rec .green .red 31 0 0 0, recSl .lunar .green 31 0 0 0, recSl .yellow .lunar 31 0 0 0],
      r.startAspect ≠ r.endAspect ∧ isBase r.startAspect ∧ isBase r.endAspect ∧
        (r.optSearchlight = false ∨ r.startAspect = .off ∨ r.endAspect = .off ∨
          r.startAspect = .lunar ∧ r.endAspect ≠ .red ∨ r.endAspect = .lunar ∧ r.startAspect ≠ .red) ∧
        r.startAspect ≠ .off ∧ r.endAspect ≠ .off ∧
        tableGet (fadeTable fixture) r.phase.toNat = some (ent 0 31 0) := by decide

/-- From Off: the entries 0 to 5 have no up-phase, entry 6 has. -/
theorem test_witness_FadeStep_fromOff :
    (recSl .off .red 0 0 0 0).startAspect = .off ∧ (recSl .off .red 0 0 0 0).phase.toNat ≤ (6#8).toNat ∧
      (ent 0 1 0).up ≠ 0 ∧ tableGet (fadeTable fixture) (6#8).toNat = some (ent 0 1 0) ∧
      ∀ m, m < 6 → (tableGet (fadeTable fixture) m).map (fun x => x.up) = some 0 := by decide

theorem test_witness_FadeToOffEndsAtZeroDown :
    (rec .red .off 5 2 0 0).startAspect ≠ .off ∧ (rec .red .off 5 2 0 0).endAspect = .off ∧
      tableGet (fadeTable fixture) (rec .red .off 5 2 0 0).phase.toNat = some (ent 0 0 0) := by decide

theorem test_witness_TransitionEndsWithinItsTable :
    ((at0 (recSl .green .red 0 0 0 31)).chan 0).startAspect ≠ ((at0 (recSl .green .red 0 0 0 31)).chan 0).endAspect ∧
      (List.replicate 12 true).length = tableLen (activeTable s0.cfg ((at0 (recSl .green .red 0 0 0 31)).chan 0)) := by
  decide

/-- A request that flashes, with the bit held at 1 and at 0, and one that does not, with the bit alternating. -/
theorem test_witness_ChannelSettlesWithin32Advances :
    ∀ p ∈ [(Aspect.flashGreen, List.replicate 32 true, Aspect.green),
        (.flashGreen, List.replicate 32 false, .off), (.lunar, (List.replicate 16 [true, false]).flatten, .lunar)],
      ((at0 { rec .red .red 0 31 0 0 with nextAspect := p.1 }).chan 0).startAspect =
          ((at0 { rec .red .red 0 31 0 0 with nextAspect := p.1 }).chan 0).endAspect ∧
        ((at0 { rec .red .red 0 31 0 0 with nextAspect := p.1 }).chan 0).phase = 0 ∧
        (∀ f ∈ p.2.1, targetOf ((at0 { rec .red .red 0 31 0 0 with nextAspect := p.1 }).chan 0).nextAspect f = p.2.2) ∧
        p.2.1.length = 32 := by decide

theorem test_witness_ThreeLampGreenYellowNeverShowsRed :
    (rec .green .yellow 6 0 0 0).optSearchlight = false ∧ (rec .green .yellow 6 0 0 0).startAspect = .green ∧
      (rec .yellow .green 6 0 0 0).startAspect = .yellow := by decide

/-- A record for each of the orders: steady on its target and off it, a step of each searchlight walk, past the end of
its table, and a fade not from Off. -/
theorem test_witness_ByteWritesMakeTheAdvance_orders :
    ((rec .red .red 0 31 0 0).startAspect = (rec .red .red 0 31 0 0).endAspect ∧
        targetOf (rec .red .red 0 31 0 0).nextAspect false = .red) ∧
      targetOf ({ rec .red .red 0 31 0 0 with nextAspect := .flashGreen } : Channel).nextAspect true ≠ .red ∧
      (∀ p ∈ [0, 11], (tableGet fixture.gy (recSl .green .yellow p 0 0 31).phase.toNat).isSome = true ∧
        (tableGet fixture.red (recSl .lunar .red p 0 0 0).phase.toNat).isSome = true) ∧
      (recSl .lunar .red 11 0 0 0).route = .red ∧
      ((recSl .lunar .red 12 0 0 0).route ≠ .fade ∧ tableLen (activeTable fixture (recSl .lunar .red 12 0 0 0)) = 12) ∧
      ((rec .red .off 5 2 0 0).route = .fade ∧ SkipsTo fixture (rec .red .off 5 2 0 0) 5) :=
  ⟨by decide, by decide, by decide, by decide, by decide, by decide, rfl⟩

/-- A fade from Off: 41 R136 skips entries 0 to 5 of `FADE_FX`; of a table without up-phases it skips all 32. -/
theorem test_witness_ByteWritesMakeTheAdvance_skip :
    SkipsTo fixture (rec .off .red 0 0 0 0) 6 ∧ SkipsTo flatFixture (rec .off .red 0 0 0 0) 32 := by
  have below : ∀ m, m < 6 → (tableGet (fadeTable fixture) m).map (fun x => x.up) = some 0 := by decide
  refine ⟨⟨by decide, by decide, fun m x _ h hx => ?_, fun x hx => ?_⟩, by decide, by decide, fun m x _ _ hx => ?_,
    fun x hx => absurd (tableGet_lt hx) (by decide)⟩
  · have := below m h
    rw [hx] at this
    exact Option.some.inj this
  · have h6 : tableGet (fadeTable fixture) 6 = some (ent 0 1 0) := rfl
    rw [← Option.some.inj (h6.symm.trans hx)]
    decide
  · have hm : x ∈ Vector.replicate 32 (ent 0 0 0) := Vector.mem_of_getElem? hx
    rw [Vector.mem_replicate] at hm
    rw [hm.2]
    rfl

/-- Where the ADVANCE of a channel begins, at either granularity, for the first channel and the last. -/
theorem test_witness_ByteWritesMakeTheAdvance_begin :
    ∀ k ∈ [(0 : Ch), 7], ({ s0 with main := .advance k } : State).main = .advance k ∧
      ({ s0 with main := .advance k } : State).cfg.granularity = .perWrite ∧
      ({ s0 with main := .advance k, cfg := { fixture with granularity := .perChannel } } : State).cfg.granularity =
        .perChannel := by decide

/-- Inside an ADVANCE, at each kind of unit: a write after which it goes on, its last write, and none left. -/
theorem test_witness_ByteWritesMakeTheAdvance :
    ∀ p ∈ [AdvancePoint.zeroGreen .red (ent 1 2 3), .settleGreen .red, .settle],
      ({ at0 (rec .green .red 3 0 0 0) with main := .writing 0 p } : State).main = .writing 0 p := by decide

/-- An ADVANCE that does not end its transition, and one that takes the last entry. -/
theorem test_witness_InterruptedAdvanceShowsOldZeroOrNew :
    ∀ q ∈ [(0, Aspect.green), (31, .red)],
      isBase ((at0 (rec .green .red q.1 0 0 31)).chan 0).startAspect ∧
        isBase ((at0 (rec .green .red q.1 0 0 31)).chan 0).endAspect ∧
        (chanAfter (.advance 0 false) (at0 (rec .green .red q.1 0 0 31)) 0).map
          (fun c => (c.startAspect, c.endAspect)) = some (q.2, .red) := by decide

/-- A transition for each walk, at the first phase, the last and the first past the table's end. -/
theorem test_witness_TableEntryDrivesOneWalkStep :
    ∀ r ∈ [recSl .green .yellow 0 0 0 0, recSl .yellow .green 11 0 0 0, recSl .red .green 11 0 0 0,
        recSl .red .lunar 12 0 0 0, rec .off .red 31 0 0 0, rec .red .off 32 0 0 0],
      ({ at0 r with cmdCh := 0 } : State).chan 0 = r ∧ r.startAspect ≠ r.endAspect := by decide

/-- The two clauses: at steady state, and on the entry at `phase`. -/
theorem test_witness_TableEntryAgreesWithAdvance :
    (s0.chan s0.cmdCh).startAspect = (s0.chan s0.cmdCh).endAspect ∧
      (rec .off .red 31 30 0 0).startAspect ≠ (rec .off .red 31 30 0 0).endAspect ∧
      tableGet (activeTable fixture (rec .off .red 31 30 0 0)) (rec .off .red 31 30 0 0).phase.toNat =
        some (ent 0 31 0) ∧ (ent 0 31 0).up ≠ 0 := by decide

theorem test_witness_DutyIsTheNumberOfLitPhases :
    (((at0 (rec .red .red 0 31 0 0)).chan 0).duty .red).toNat = 31 ∧
      (((at0 (rec .red .red 0 31 0 0)).chan 0).duty .green).toNat = 0 := by decide

theorem test_witness_CountersAfterTicks :
    ({ s0 with msAcc := 3, flashCount := 1999 } : State).msAcc < s0.cfg.ticksPerMs ∧
      ({ s0 with msAcc := 3, flashCount := 1999 } : State).flashCount < s0.cfg.flashToggleTicks := by decide

/-- The agents' turns of a run: the tick and the main loop by turns. -/
def turn (n : Nat) : AgentStep := if n % 2 = 0 then .tick else .main false

/-- The states of that run. -/
def runOfTurns (n : Nat) : State :=
  match n with
  | 0 => s0
  | m + 1 => if m % 2 = 0 then (runOfTurns m).tick else (runOfTurns m).mainUnit false

/-- The second clause: a run that is weakly fair to the tick agent and the main loop. -/
theorem test_witness_CountersAfterTicks_fair : IsFairRun runOfTurns turn := by
  refine ⟨fun n => ?_, fun n _ => ⟨2 * n, by omega, ?_⟩, fun n _ => ⟨2 * n + 1, by omega, ?_⟩⟩
  · by_cases h : n % 2 = 0
    · simp only [turn, runOfTurns, if_pos h]; rfl
    · simp only [turn, runOfTurns, if_neg h]; rfl
  · simp [turn, agentOf]
  · simp only [turn, agentOf, if_neg (show ¬(2 * n + 1) % 2 = 0 by omega)]

/-- The three clauses: a lane that agrees (1), one that differs a first (2) and one that differs a second time (7). -/
theorem test_witness_DebSampleActsLaneByLane :
    ({ s0 with clockA := 0x80 } : State).clockB = 0 ∧
      ((0x84#8).getLsbD 1 = s0.debState.getLsbD 1) ∧
      ((0x84#8).getLsbD 2 ≠ s0.debState.getLsbD 2 ∧ (0x80#8).getLsbD 2 = false) ∧
      ((0x84#8).getLsbD 7 ≠ s0.debState.getLsbD 7 ∧ (0x80#8).getLsbD 7 = true) := by decide

theorem test_witness_DebSampleHasTheBitwiseForm : ({ s0 with clockA := 0x80 } : State).clockB = 0 := by decide

/-- Both ends: the second call reverts, or holds. -/
theorem test_witness_GlitchIsAbsorbedAndHeldChangeFlips :
    s0.clockA = 0 ∧ s0.clockB = 0 ∧ (0x80#8).getLsbD 7 ≠ s0.debState.getLsbD 7 ∧
      (0x00#8).getLsbD 7 = s0.debState.getLsbD 7 := by decide

theorem test_witness_ServiceAdvancesEveryChannelOnce : s0.updateFlag = false ∧ sFlag.updateFlag = true := by decide

theorem test_witness_PollTakesTheRegisterMapWhenIdle :
    s0.busBusy = false ∧ ({ s0 with busBusy := true } : State).busBusy = true := by decide

theorem test_witness_ServiceUnitsMakeTheService :
    sFlag.main = .serviceRead ∧ sFlag.updateFlag = true ∧ s0.main = .serviceRead ∧
      ∀ m ∈ [MainLoop.serviceDone, .serviceClear], ({ sFlag with main := m } : State).main = m := by decide

/-- Idle and busy, at each unit of the POLL, for the first channel and the last. -/
theorem test_witness_PollUnitsMakeThePoll :
    ∀ b ∈ [true, false], ∀ m ∈ [MainLoop.serviceDone, .pollBusy, .pollAspect 0, .pollOption 7 6, .pollTarget 7 6 1,
      .pollSetOptions 0 1, .pollSetOptions 7 1],
      ({ s0 with main := m, busBusy := b } : State).main = m ∧
        ({ s0 with main := m, busBusy := b } : State).busBusy = b := by decide

/-- 43 R195, 20 R61: the aspect byte that channel 7's SET_TARGET takes is the one read, whatever the host wrote since. -/
theorem test_step_poll_takes_the_byte_read :
    (nextOf (step { placed [.agent (.main true)] with main := .pollTarget 7 6 1, regmap := [(7, 5)] })).map
      (fun t => ((t.chan 7).nextAspect, t.main)) = some (.flashRed, .pollSetOptions 7 1) := by decide

theorem test_witness_WrapBeforeClearIsLost : sFlag.main = .serviceRead ∧ sFlag.updateFlag = true := by decide

/-- Both rows at both ends of their ranges. -/
theorem test_witness_HostWriteWritesOneByte :
    (∀ a ∈ [0x00#8, 0x0F#8, 0x10#8, 0x17#8], a.toNat < 24) ∧
      Memory.wf s0.cfg ({ s0 with regmap := [(2, 1), (23, 5)] } : State).regmap = true := by decide

theorem test_witness_HostWriteOutsideTheMapFaults :
    24 ≤ (0x18#8).toNat ∧ nextOf (exec (.hostWrite 0x18 0) s0) = none := by decide

theorem test_witness_HostSenseReachesTheFilterInTwoPolls : s0.clockA = 0 ∧ s0.clockB = 0 := by decide

/-- A TICK; and an idle POLL with another byte 20. -/
theorem test_witness_OnlyPollReadsTheRegisterMap :
    exec .tick s0 = .next s0.tick ∧ exec .poll s0 = .next s0.poll ∧ s0.busBusy = false ∧
      ∀ a : Fin 24, a.val < 16 → { s0 with regmap := [(20, 5)] }.readReg a = s0.readReg a := by
  exact ⟨rfl, rfl, rfl, by decide⟩

/-- The three clauses: an unset line, a TICK, and a line already driven. -/
theorem test_witness_LinesAreUnsetUntilDriven :
    (s0.out.get 0).line .red = none ∧ exec .tick s0 = .next s0.tick ∧ Instr.service ≠ .reset ∧
      exec .service s0.tick = .next s0.tick.service ∧ (∃ b : Bool, readLine s0.tick 0 .red = .ok b) := by
  exact ⟨rfl, rfl, by decide, rfl, _, rfl⟩

theorem test_witness_TableAcceptedExactlyWhenWellFormed :
    (acceptTable [(31, 0, 31)]).isSome = true ∧ (acceptTable (List.replicate 32 (1, 2, 3))).isSome = true ∧
      (acceptFade (List.replicate 32 (31, 31, 31))).isSome = true := by decide

end Sys2Proof.Tests
end

section
/-! PROOFS of 00 R9: which lists of byte records are accepted as tables. The idea: an entry's fields are at most 31
by type, so accepting a record or a list of records means finding the entries with the same fields. -/

namespace Sys2Proof

open Machine

/-- The fields of an entry as numbers: down, up, red (30 R73). -/
def Entry.fields (x : Entry) : Nat × Nat × Nat := (x.down.toNat, x.up.toNat, x.red.toNat)

/-- The fields of a byte record as numbers. -/
def recordFields (e : Byte × Byte × Byte) : Nat × Nat × Nat := (e.1.toNat, e.2.1.toNat, e.2.2.toNat)

/-- Every field of a byte record fits five bits (00 R9 (b)). -/
def RecordFits (e : Byte × Byte × Byte) : Prop := e.1.toNat ≤ 31 ∧ e.2.1.toNat ≤ 31 ∧ e.2.2.toNat ≤ 31

theorem acceptEntry_of_fits {e : Byte × Byte × Byte} (h : RecordFits e) :
    acceptEntry e = some ⟨e.1.setWidth 5, e.2.1.setWidth 5, e.2.2.setWidth 5⟩ := if_pos h

theorem acceptEntry_of_not_fits {e : Byte × Byte × Byte} (h : ¬ RecordFits e) : acceptEntry e = none := if_neg h

theorem toNat_setWidth_five {b : Byte} (h : b.toNat ≤ 31) : (b.setWidth 5).toNat = b.toNat := by
  rw [BitVec.toNat_setWidth]
  exact Nat.mod_eq_of_lt (by omega)

theorem acceptEntry_fields {e : Byte × Byte × Byte} {x : Entry} (h : acceptEntry e = some x) :
    x.fields = recordFields e := by
  by_cases hf : RecordFits e
  · obtain rfl := Option.some.inj ((acceptEntry_of_fits hf).symm.trans h)
    obtain ⟨hdown, hup, hred⟩ := hf
    simp only [Entry.fields, recordFields, toNat_setWidth_five, hdown, hup, hred]
  · simp [acceptEntry_of_not_fits hf] at h

theorem acceptEntries_cons_eq_some_iff {e : Byte × Byte × Byte} {rest : List (Byte × Byte × Byte)} {xs : List Entry} :
    acceptEntries (e :: rest) = some xs ↔
      ∃ x ys, acceptEntry e = some x ∧ acceptEntries rest = some ys ∧ x :: ys = xs := by
  rw [acceptEntries]
  cases acceptEntry e <;> cases acceptEntries rest <;> simp

theorem acceptEntries_fields {rows : List (Byte × Byte × Byte)} {xs : List Entry} (h : acceptEntries rows = some xs) :
    xs.map Entry.fields = rows.map recordFields := by
  induction rows generalizing xs with
  | nil =>
    obtain rfl := Option.some.inj h
    rfl
  | cons e rest ih =>
    obtain ⟨x, ys, hx, hys, rfl⟩ := acceptEntries_cons_eq_some_iff.1 h
    rw [List.map_cons, List.map_cons, acceptEntry_fields hx, ih hys]

theorem acceptEntries_length {rows : List (Byte × Byte × Byte)} {xs : List Entry} (h : acceptEntries rows = some xs) :
    xs.length = rows.length := by
  simpa using congrArg List.length (acceptEntries_fields h)

theorem exists_acceptEntry_iff {e : Byte × Byte × Byte} : (∃ x, acceptEntry e = some x) ↔ RecordFits e := by
  by_cases hf : RecordFits e
  · simp [acceptEntry_of_fits hf, hf]
  · simp [acceptEntry_of_not_fits hf, hf]

theorem exists_acceptEntries_iff {rows : List (Byte × Byte × Byte)} :
    (∃ xs, acceptEntries rows = some xs) ↔ ∀ e ∈ rows, RecordFits e := by
  induction rows with
  | nil => simp [acceptEntries]
  | cons e rest ih =>
    rw [List.forall_mem_cons, ← ih, ← exists_acceptEntry_iff]
    constructor
    · rintro ⟨_, h⟩
      obtain ⟨x, ys, hx, hys, -⟩ := acceptEntries_cons_eq_some_iff.1 h
      exact ⟨⟨x, hx⟩, ⟨ys, hys⟩⟩
    · rintro ⟨⟨x, hx⟩, ⟨ys, hys⟩⟩
      exact ⟨x :: ys, acceptEntries_cons_eq_some_iff.2 ⟨x, ys, hx, hys, rfl⟩⟩

theorem acceptEntries_getElem? {rows : List (Byte × Byte × Byte)} {xs : List Entry}
    (h : acceptEntries rows = some xs) (n : Nat) : xs[n]?.map Entry.fields = rows[n]?.map recordFields := by
  rw [← List.getElem?_map, ← List.getElem?_map, acceptEntries_fields h]

/-! ### Tables (00 R9 (a)) -/

theorem acceptTable_eq_some_iff {rows : List (Byte × Byte × Byte)} {t : Table} :
    acceptTable rows = some t ↔ acceptEntries rows = some t.2.toList := by
  obtain ⟨⟨last, hlast⟩, ⟨⟨ys⟩, hsize⟩⟩ := t
  have hlen : ys.length = last + 1 := hsize
  unfold acceptTable
  split
  · next x xs h =>
    rw [h]
    constructor
    · intro ht
      split at ht <;> cases ht
      rfl
    · intro hys
      obtain rfl : x :: xs = ys := Option.some.inj hys
      obtain rfl : xs.length = last := Nat.succ.inj hlen
      exact dif_pos hlast
  · next h =>
    cases ys with
    | nil => cases hlen
    | cons y ys => exact ⟨nofun, fun hys => (h y ys hys).elim⟩

theorem exists_table_toList {xs : List Entry} (hpos : 1 ≤ xs.length) (hle : xs.length ≤ 32) :
    ∃ t : Table, t.2.toList = xs :=
  ⟨⟨⟨xs.length - 1, by omega⟩, ⟨xs.toArray, by simp; omega⟩⟩, rfl⟩

theorem acceptTable_tableLen {rows : List (Byte × Byte × Byte)} {t : Table} (h : acceptTable rows = some t) :
    tableLen t = rows.length :=
  t.2.length_toList.symm.trans (acceptEntries_length (acceptTable_eq_some_iff.1 h))

theorem acceptTable_tableGet {rows : List (Byte × Byte × Byte)} {t : Table} (h : acceptTable rows = some t) (n : Nat) :
    (tableGet t n).map Entry.fields = rows[n]?.map recordFields := by
  rw [tableGet, ← Vector.getElem?_toList, acceptEntries_getElem? (acceptTable_eq_some_iff.1 h)]

theorem acceptTable_isSome_iff {rows : List (Byte × Byte × Byte)} :
    (acceptTable rows).isSome = true ↔ 1 ≤ rows.length ∧ rows.length ≤ 32 ∧ ∀ e ∈ rows, RecordFits e := by
  rw [Option.isSome_iff_exists, ← exists_acceptEntries_iff]
  constructor
  · rintro ⟨t, ht⟩
    rw [← acceptTable_tableLen ht]
    exact ⟨(tableLen_bounds t).1, (tableLen_bounds t).2, _, acceptTable_eq_some_iff.1 ht⟩
  · rintro ⟨hpos, hle, xs, hxs⟩
    rw [← acceptEntries_length hxs] at hpos hle
    obtain ⟨t, rfl⟩ := exists_table_toList hpos hle
    exact ⟨t, acceptTable_eq_some_iff.2 hxs⟩

/-! ### Fade tables (00 R9 (c)) -/

theorem acceptFade_eq_some_iff {rows : List (Byte × Byte × Byte)} {v : Vector Entry 32} :
    acceptFade rows = some v ↔ acceptEntries rows = some v.toList := by
  obtain ⟨⟨ys⟩, hsize⟩ := v
  unfold acceptFade
  split
  · next xs h =>
    rw [h]
    constructor
    · intro hv
      split at hv <;> cases hv
      rfl
    · intro hys
      obtain rfl : xs = ys := Option.some.inj hys
      exact dif_pos hsize
  · next h => simp [h]

theorem acceptFade_getElem? {rows : List (Byte × Byte × Byte)} {v : Vector Entry 32} (h : acceptFade rows = some v)
    (n : Nat) : v[n]?.map Entry.fields = rows[n]?.map recordFields := by
  rw [← Vector.getElem?_toList, acceptEntries_getElem? (acceptFade_eq_some_iff.1 h)]

theorem acceptFade_isSome_iff {rows : List (Byte × Byte × Byte)} :
    (acceptFade rows).isSome = true ↔ rows.length = 32 ∧ ∀ e ∈ rows, RecordFits e := by
  rw [Option.isSome_iff_exists, ← exists_acceptEntries_iff]
  constructor
  · rintro ⟨v, hv⟩
    have hxs := acceptFade_eq_some_iff.1 hv
    exact ⟨(acceptEntries_length hxs).symm.trans v.length_toList, _, hxs⟩
  · rintro ⟨hlen, xs, hxs⟩
    exact ⟨⟨xs.toArray, (acceptEntries_length hxs).trans hlen⟩, acceptFade_eq_some_iff.2 hxs⟩

/-- Settles O60: an accepted table holds the entries accepted for its records, and those have the records' fields. -/
theorem tableAcceptedExactlyWhenWellFormed : Obligations.TableAcceptedExactlyWhenWellFormed :=
  fun _ => ⟨acceptTable_isSome_iff, acceptFade_isSome_iff,
    fun _ h => ⟨acceptTable_tableLen h, acceptTable_tableGet h⟩, fun _ h => acceptFade_getElem? h⟩

end Sys2Proof
end

section
/-! PROOFS of 10 R21 to R23 and R33: what every step keeps. The idea: each instruction has one of a few effects on the
state (`Effect`), under which a channel record takes a command, an ADVANCE, a table entry, or the reset values
(`Channel.MovesTo`). What these two keep, every operation keeps; the main loop's units are such effects too, or single
byte writes of an ADVANCE, which `AdvanceUnit.Good` covers. -/

namespace Sys2Proof.Machine

/-! ### The parts of ADVANCE keep a record in range (10 R21, R23) -/

theorem Channel.setDuty_inRange {r : Channel} (c : Color) (v : BitVec 5) (h : r.InRange) :
    (r.setDuty c (level v)).InRange := by
  cases c
  · exact Channel.write_inRange (w := .redDuty _) h (level_le v)
  · exact Channel.write_inRange (w := .yellowDuty _) h (level_le v)
  · exact Channel.write_inRange (w := .greenDuty _) h (level_le v)

theorem Channel.setDuty?_inRange {r : Channel} (c : Option Color) (v : BitVec 5) (h : r.InRange) :
    (r.setDuty? c (level v)).InRange := by
  cases c with
  | none => exact h
  | some c => exact setDuty_inRange c v h

theorem Channel.throughRed_inRange {r : Channel} (e : Entry) (h : r.InRange) : (r.throughRed e).InRange :=
  setDuty_inRange _ _ (setDuty?_inRange _ _ (setDuty?_inRange _ _ h))

theorem Channel.zeroDuties_inRange {r : Channel} (h : r.InRange) : r.zeroDuties.InRange := by
  obtain ⟨-, -, -, hends⟩ := h
  exact ⟨Nat.zero_le _, Nat.zero_le _, Nat.zero_le _, hends⟩

theorem Channel.crossDuties_inRange {r : Channel} (e : Entry) (h : r.InRange) : (r.crossDuties e).InRange :=
  setDuty?_inRange _ _ (setDuty?_inRange _ _ (zeroDuties_inRange h))

theorem Channel.finish_inRange {r : Channel} (h : r.InRange) : r.finish.InRange := by
  obtain ⟨hred, hyellow, hgreen, -, hend, -⟩ := h
  exact ⟨hred, hyellow, hgreen, hend, hend, Nat.zero_le _⟩

theorem Channel.stepPhase_inRange {r : Channel} (len : Nat) (h : r.InRange) (hp : r.phase.toNat < 32) :
    (r.stepPhase len).InRange := by
  have hrise : ({ r with phase := r.phase + 1 } : Channel).InRange :=
    Channel.write_inRange (w := .phase _) h (phase_succ_le hp)
  unfold Channel.stepPhase
  split
  · exact finish_inRange hrise
  · exact hrise

theorem Channel.SameButDuties.phase_eq {r t : Channel} (h : r.SameButDuties t) : t.phase = r.phase := by
  obtain ⟨_, _, _, rfl⟩ := h
  rfl

theorem Channel.takeEntry_inRange {r : Channel} (w : Route) (len : Nat) (e : Entry) (h : r.InRange)
    (hp : r.phase.toNat < 32) : (r.takeEntry w len e).InRange := by
  have hcross : ((r.crossDuties e).stepPhase len).InRange :=
    stepPhase_inRange len (crossDuties_inRange e h) ((crossDuties_sameButDuties e r).phase_eq ▸ hp)
  cases w with
  | gy => exact stepPhase_inRange len (throughRed_inRange e h) ((throughRed_sameButDuties e r).phase_eq ▸ hp)
  | red => exact hcross
  | fade =>
    simp only [Channel.takeEntry]
    split
    · exact finish_inRange h
    · exact hcross

theorem Channel.walkTable_inRange {r : Channel} (w : Route) (t : Table) (h : r.InRange) :
    (r.walkTable w t).InRange := by
  unfold Channel.walkTable
  split
  · exact finish_inRange h
  · next e he => exact takeEntry_inRange w _ e h (Nat.lt_of_lt_of_le (tableGet_lt he) (tableLen_bounds t).2)

theorem Channel.skipLeading_inRange {r : Channel} (t : Table) (h : r.InRange) : (r.skipLeading t).InRange := by
  obtain ⟨-, -, -, -, -, hphase⟩ := id h
  unfold Channel.skipLeading
  split
  · exact Channel.write_inRange (w := .phase _) h (skipZeroUp_bounds t _ _ hphase).2
  · exact h

theorem Channel.walk_inRange {r : Channel} (cfg : Config) (h : r.InRange) : (r.walk cfg).InRange := by
  unfold Channel.walk
  split
  · exact h
  · cases r.route with
    | gy => exact walkTable_inRange _ _ h
    | red => exact walkTable_inRange _ _ h
    | fade => exact walkTable_inRange _ _ (skipLeading_inRange _ h)

theorem Channel.begin_inRange {r : Channel} {t : Aspect} (ht : isBase t) (h : r.InRange) : (r.begin t).InRange := by
  obtain ⟨hred, hyellow, hgreen, hstart, -, -⟩ := id h
  unfold Channel.begin
  split
  · exact ⟨hred, hyellow, hgreen, hstart, ht, Nat.zero_le _⟩
  · exact h

theorem Channel.settle_inRange {r : Channel} (h : r.InRange) : r.settle.InRange := by
  obtain ⟨-, -, -, hends⟩ := id h
  unfold Channel.settle
  split
  · exact ⟨steadyDuty_le _ _, steadyDuty_le _ _, steadyDuty_le _ _, hends⟩
  · exact h

theorem Channel.advance_inRange {r : Channel} (cfg : Config) (f : Bool) (h : r.InRange) :
    (r.advance cfg f).InRange :=
  settle_inRange (walk_inRange cfg (begin_inRange (effective_isBase _ _) h))

theorem Channel.runEntry_inRange {r : Channel} (cfg : Config) (e : Entry) (h : r.InRange) :
    (r.runEntry cfg e).InRange := by
  have hlen := (tableLen_bounds (routeTable cfg r.route)).2
  unfold Channel.runEntry
  split
  · exact h
  · split
    · exact finish_inRange h
    · split
      · exact stepPhase_inRange _ h (by omega)
      · exact takeEntry_inRange _ _ e h (by omega)

theorem Channel.atReset_inRange : Channel.atReset.InRange := by decide

/-! ### The phase after an ADVANCE or a table entry (10 R21, R22) -/

/-- The phase as operations leave it: below 32, and 0 at steady state (10 R21, R22). -/
def Channel.PhaseAtRest (r : Channel) : Prop :=
  r.phase.toNat < 32 ∧ (r.startAspect = r.endAspect → r.phase = 0)

theorem Channel.atRest_iff {r : Channel} : r.AtRest ↔ r.InRange ∧ r.PhaseAtRest := Iff.rfl

/-- The phase and the endpoints are as they were. -/
def Channel.SameProgress (r t : Channel) : Prop :=
  t.phase = r.phase ∧ t.startAspect = r.startAspect ∧ t.endAspect = r.endAspect

theorem Channel.PhaseAtRest.of_sameProgress {r t : Channel} (hr : r.PhaseAtRest) (h : r.SameProgress t) :
    t.PhaseAtRest := by
  obtain ⟨hphase, hstart, hend⟩ := h
  unfold Channel.PhaseAtRest
  rwa [hphase, hstart, hend]

theorem Channel.phaseAtRest_of_phase_zero {r : Channel} (h : r.phase = 0) : r.PhaseAtRest :=
  ⟨by simp [h], fun _ => h⟩

theorem Channel.settle_sameProgress (r : Channel) : r.SameProgress r.settle := by
  unfold Channel.settle
  split <;> exact ⟨rfl, rfl, rfl⟩

theorem Channel.arrived_phaseAtRest (r : Channel) : r.arrived.PhaseAtRest :=
  (phaseAtRest_of_phase_zero rfl).of_sameProgress (settle_sameProgress _)

theorem Channel.advance_phaseAtRest_of_transition {cfg : Config} (f : Bool) {r : Channel}
    (h : r.startAspect ≠ r.endAspect) : (r.advance cfg f).PhaseAtRest := by
  rcases advance_cases (cfg := cfg) f h with ⟨x, y, z, p, e, -, hp⟩ | e <;> rw [e]
  · exact ⟨Nat.lt_of_lt_of_le hp (tableLen_bounds _).2, fun he => absurd he h⟩
  · exact arrived_phaseAtRest r

/-- ADVANCE leaves the phase at rest, or as it was: at steady state on the target it only forces the duties. -/
theorem Channel.advance_progress (cfg : Config) (f : Bool) (r : Channel) :
    (r.advance cfg f).PhaseAtRest ∨ r.SameProgress (r.advance cfg f) := by
  by_cases hsteady : r.startAspect = r.endAspect
  · by_cases htarget : effective r.nextAspect f = r.endAspect
    · rw [advance_of_steady f hsteady htarget]
      exact .inr (settle_sameProgress r)
    · rw [advance_of_begin f hsteady htarget]
      exact .inl (advance_phaseAtRest_of_transition f fun he => htarget (he.symm.trans hsteady))
  · exact .inl (advance_phaseAtRest_of_transition f hsteady)

/-- A table entry does nothing at steady state, and otherwise leaves the phase at rest. -/
theorem Channel.runEntry_progress (cfg : Config) (e : Entry) (r : Channel) :
    (r.runEntry cfg e).PhaseAtRest ∨ r.SameProgress (r.runEntry cfg e) := by
  have hlen := (tableLen_bounds (routeTable cfg r.route)).2
  unfold Channel.runEntry
  split
  · exact .inr ⟨rfl, rfl, rfl⟩
  · next hne =>
    left
    split
    · exact phaseAtRest_of_phase_zero rfl
    · next hin =>
      rw [Nat.not_le] at hin
      split
      · rcases stepPhase_cases (t := r) ⟨_, _, _, rfl⟩ hin hlen with ⟨hl, g⟩ | ⟨-, g⟩ <;> rw [g]
        · have := phase_succ hin hlen
          exact ⟨by simp only; omega, fun he => absurd he hne⟩
        · exact phaseAtRest_of_phase_zero rfl
      · rcases takeEntry_cases r.route e hin hlen with ⟨x, y, z, p, g, -, hp⟩ | ⟨x, y, z, g⟩ <;> rw [g]
        · exact ⟨Nat.lt_of_lt_of_le hp hlen, fun he => absurd he hne⟩
        · exact phaseAtRest_of_phase_zero rfl

/-! ### What an instruction can do to one channel record -/

/-- The record `r` is as the second one after an instruction: as it was but for the requested aspect and the options
(41 R122, R124), advanced (R125), moved by a table entry (R131), or reset (70 R230). -/
inductive Channel.MovesTo (cfg : Config) (r : Channel) : Channel → Prop
  | command (a : Aspect) (searchlight invert : Bool) :
      MovesTo cfg r { r with nextAspect := a, optSearchlight := searchlight, optInvert := invert }
  | advance (f : Bool) : MovesTo cfg r (r.advance cfg f)
  | entry (e : Entry) : MovesTo cfg r (r.runEntry cfg e)
  | reset : MovesTo cfg r Channel.atReset

namespace Channel.MovesTo

variable {cfg : Config} {r t : Channel}

theorem refl (cfg : Config) (r : Channel) : r.MovesTo cfg r := .command r.nextAspect r.optSearchlight r.optInvert

theorem setTarget (cfg : Config) (r : Channel) (a : Aspect) : r.MovesTo cfg (r.setTarget a) :=
  .command a r.optSearchlight r.optInvert

theorem setOptions (cfg : Config) (r : Channel) (l : Bool) (b : Byte) (s : Bool) :
    r.MovesTo cfg (r.setOptions l b s) := .command r.nextAspect _ _

theorem inRange (h : r.MovesTo cfg t) (hr : r.InRange) : t.InRange := by
  cases h with
  | command => exact hr
  | advance f => exact advance_inRange cfg f hr
  | entry e => exact runEntry_inRange cfg e hr
  | reset => exact atReset_inRange

theorem progress (h : r.MovesTo cfg t) : t.PhaseAtRest ∨ r.SameProgress t := by
  cases h with
  | command => exact .inr ⟨rfl, rfl, rfl⟩
  | advance f => exact advance_progress cfg f r
  | entry e => exact runEntry_progress cfg e r
  | reset => exact .inl (phaseAtRest_of_phase_zero rfl)

theorem atRest (h : r.MovesTo cfg t) (hr : r.AtRest) : t.AtRest := by
  obtain ⟨hin, hphase⟩ := atRest_iff.1 hr
  exact atRest_iff.2 ⟨h.inRange hin, h.progress.elim id hphase.of_sameProgress⟩

/-- No instruction raises a phase to 32. -/
theorem phase_eq_32 (h : r.MovesTo cfg t) (ht : t.phase.toNat = 32) : r.phase.toNat = 32 := by
  rcases h.progress with ⟨hlt, -⟩ | ⟨hsame, -, -⟩
  · omega
  · rwa [← hsame]

end Channel.MovesTo

/-! ### What an instruction can do to the state -/

/-- The effects that instructions have on a state; several rows share one, and SERVICE and POLL have one for each
outcome of their tests. -/
inductive Effect (s : State) : State → Prop
  | nothing : Effect s s
  | setTarget (k : Ch) (a : Aspect) : Effect s (s.setTarget k a)
  | setOptions (k : Ch) (b : Byte) : Effect s (s.setOptions k b)
  | entry (k : Ch) (e : Entry) : Effect s (s.setChan k ((s.chan k).runEntry s.cfg e))
  | reset : Effect s s.resetBlock
  | advance (k : Ch) (f : Bool) : Effect s (s.advance k f)
  | drive (k : Ch) (p : BitVec 5) : Effect s (s.drive k p)
  | tick : Effect s s.tick
  | service : Effect s ({ s with updateFlag := false }.advanceAll s.flasher)
  | debounce (raw : Byte) : Effect s (s.debounce raw)
  | poll (raw : Byte) : Effect s (s.debounce raw).takeCommands
  | debInit (v : Byte) : Effect s { s with debState := v, clockA := 0, clockB := 0 }
  | debSample (raw : Byte) : Effect s { s.debounce raw with result := s.debChanged raw }
  | debState : Effect s { s with result := s.debState }
  | hostWrite (a : Fin 24) (v : Byte) : Effect s (s.writeReg a v)
  | hostBusy (l : Bool) : Effect s { s with busBusy := l }
  | hostSense (v : Byte) : Effect s { s with senseRaw := v }

theorem State.service_effect (s : State) : Effect s s.service := by
  unfold State.service
  split
  · exact .service
  · exact .nothing

theorem State.poll_effect (s : State) : Effect s s.poll := by
  unfold State.poll
  split
  · exact .debounce _
  · exact .poll _

theorem State.hostWrite_effect {s t : State} {a v : Byte} (h : s.hostWrite a v = .next t) : Effect s t := by
  unfold State.hostWrite at h
  split at h <;> cases h
  exact .hostWrite _ v

/-- What an instruction can do, said once. -/
theorem exec_effect {i : Instr} {s t : State} (h : exec i s = .next t) : Effect s t := by
  cases i with
  | hostWrite a v => exact State.hostWrite_effect h
  | hostWriteUnread a v => exact State.hostWrite_effect h
  | aspectOff | aspectGreen | aspectFlashGreen | aspectYellow | aspectFlashYellow | aspectRed | aspectFlashRed
  | aspectLunar | aspectInvalid08 | aspectInvalid10 | aspectInvalid20 | aspectInvalid40 | aspectInvalid80
  | setTarget => cases h; exact .setTarget _ _
  | optionPolCommonAnode | optionPolCommonCathode | optionPolFromSense | optionPolInvalid | optionTopoThreeLamp
  | optionTopoSearchlight | optionTopoInvalid2 | optionTopoInvalid4 | setOptions => cases h; exact .setOptions _ _
  | tableEntry => cases h; exact .entry _ _
  | reset => cases h; exact .reset
  | advance => cases h; exact .advance _ _
  | drive => cases h; exact .drive _ _
  | tick => cases h; exact .tick
  | service => cases h; exact s.service_effect
  | poll => cases h; exact s.poll_effect
  | debInit => cases h; exact .debInit _
  | debSample => cases h; exact .debSample _
  | debState => cases h; exact .debState
  | hostBusy => cases h; exact .hostBusy _
  | hostSense => cases h; exact .hostSense _

/-- A channel whose record is replaced by one it moves to; the others stay. -/
theorem State.setChan_movesTo {s : State} {k : Ch} {c : Channel} (h : (s.chan k).MovesTo s.cfg c) (j : Ch) :
    (s.chan j).MovesTo s.cfg ((s.setChan k c).chan j) := by
  by_cases hj : j = k
  · subst hj
    rwa [State.chan_setChan_same]
  · rw [State.chan_setChan_ne s c hj]
    exact .refl _ _

namespace Effect

variable {s t : State}

theorem cfg_eq (h : Effect s t) : t.cfg = s.cfg := by
  cases h with
  | tick => exact s.tick_cfg
  | _ => rfl

theorem chan_movesTo (h : Effect s t) (k : Ch) : (s.chan k).MovesTo s.cfg (t.chan k) := by
  cases h with
  | setTarget j a => exact State.setChan_movesTo (.setTarget _ _ a) k
  | setOptions j b => exact State.setChan_movesTo (.setOptions _ _ _ b _) k
  | entry j e => exact State.setChan_movesTo (.entry e) k
  | advance j f => exact State.setChan_movesTo (.advance f) k
  | reset =>
    rw [State.chan_resetBlock]
    exact .reset
  | tick =>
    rw [State.chan_tick]
    exact .refl _ _
  | service =>
    rw [State.chan_advanceAll]
    exact .advance _
  | poll raw =>
    rw [State.chan_takeCommands]
    exact .command _ _ _
  | _ => exact .refl _ _

/-- Only RESET moves the main loop. -/
theorem main_eq_or_reset (h : Effect s t) : t.main = s.main ∨ t = s.resetBlock := by
  cases h with
  | reset => exact .inr rfl
  | tick =>
    obtain ⟨-, -, -, -, ⟨-, hmain, -⟩, -⟩ := s.tick_keeps
    exact .inl hmain
  | _ => exact .inl rfl

theorem msAcc_lt (h : Effect s t) (hs : s.msAcc < s.cfg.ticksPerMs) : t.msAcc < t.cfg.ticksPerMs := by
  cases h with
  | reset => exact s.cfg.ticksPerMs.pos
  | tick =>
    rw [State.tick_cfg]
    rcases s.tick_millis with ⟨-, hacc, -⟩ | ⟨hwrap, hacc, -⟩ <;> omega
  | _ => exact hs

theorem flashCount_lt (h : Effect s t) (hs : s.flashCount < s.cfg.flashToggleTicks) :
    t.flashCount < t.cfg.flashToggleTicks := by
  cases h with
  | reset => exact s.cfg.flashToggleTicks.pos
  | tick =>
    rw [State.tick_cfg]
    rcases s.tick_flasher with ⟨-, hcount, -⟩ | ⟨hwrap, hcount, -⟩ <;> omega
  | _ => exact hs

theorem clockB_eq_zero (h : Effect s t) (hs : s.clockB = 0) : t.clockB = 0 := by
  cases h with
  | reset => rfl
  | debInit => rfl
  | tick =>
    obtain ⟨-, ⟨-, -, hclock⟩, -⟩ := s.tick_keeps
    rwa [hclock]
  | debounce raw => exact State.debounce_clockB raw hs
  | poll raw => exact State.debounce_clockB raw hs
  | debSample raw => exact State.debounce_clockB raw hs
  | _ => exact hs

theorem regmap_wf (h : Effect s t) (hs : Memory.wf s.cfg s.regmap = true) : Memory.wf t.cfg t.regmap = true := by
  cases h with
  | hostWrite a v => exact State.writeReg_wf a v hs
  | tick =>
    obtain ⟨-, -, -, -, -, -, hmap⟩ := s.tick_keeps
    rwa [State.tick_cfg, hmap]
  | _ => exact hs

/-- An instruction keeps the invariant, wherever the main loop stands: no phase rises to 32, and the main loop does
not move, but for RESET, after which every phase is 0. -/
theorem inv (h : Effect s t) (hs : s.Inv) : t.Inv := by
  obtain ⟨hchan, hpoint, hms, hflash, hclock, hmap⟩ := hs
  have hin (k : Ch) : (t.chan k).InRange := (h.chan_movesTo k).inRange (hchan k).1
  have hrest : t.msAcc < t.cfg.ticksPerMs ∧ t.flashCount < t.cfg.flashToggleTicks ∧ t.clockB = 0 ∧
      Memory.wf t.cfg t.regmap = true :=
    ⟨h.msAcc_lt hms, h.flashCount_lt hflash, h.clockB_eq_zero hclock, h.regmap_wf hmap⟩
  rcases h.main_eq_or_reset with hmain | rfl
  · rw [State.Inv, hmain]
    exact ⟨fun k => ⟨hin k, fun h32 => (hchan k).2 ((h.chan_movesTo k).phase_eq_32 h32)⟩, hpoint, hrest⟩
  · refine ⟨fun k => ⟨hin k, fun h32 => ?_⟩, trivial, hrest⟩
    rw [State.chan_resetBlock] at h32
    exact absurd h32 (by decide)

end Effect

/-! ### What a step can do -/

theorem runDecoded_effect {d : Except DecodeError Instr} {s t : State} (h : runDecoded d s = .next t) :
    Effect s t := by
  cases d with
  | ok i => exact exec_effect h
  | error e => cases h

theorem runFor_effect {k : Ch} {f : Format} {w : Nat} {s t : State} (h : runFor k f w s = .next t) :
    Effect { s with cmdCh := k } t :=
  runDecoded_effect h

theorem runAgent_cases {a : AgentStep} {s t : State} (h : runAgent a s = .next t) :
    Effect s t ∨ ∃ poll, t = s.mainUnit poll := by
  unfold runAgent at h
  split at h
  · exact .inl (exec_effect h)
  · cases h
    exact .inr ⟨_, rfl⟩

/-- A step takes an item or a free choice, and perhaps selects a channel; then it has an instruction's effect or does
the main loop's next unit. -/
theorem step_cases {s t : State} (h : step s = .next t) :
    ∃ sched choice cmdCh, Effect { s with sched, choice, cmdCh } t ∨
      ∃ poll, t = State.mainUnit { s with sched, choice, cmdCh } poll := by
  unfold step at h
  split at h
  · next it rest hsched =>
    cases it with
    | agent a => exact ⟨rest, s.choice, s.cmdCh, runAgent_cases h⟩
    | opWord w => exact ⟨rest, s.choice, s.cmdCh, .inl (runDecoded_effect h)⟩
    | aspectByte k b => exact ⟨rest, s.choice, k, .inl (runFor_effect h)⟩
    | optionPol k b => exact ⟨rest, s.choice, k, .inl (runFor_effect h)⟩
    | optionTopo k b => exact ⟨rest, s.choice, k, .inl (runFor_effect h)⟩
    | tableEntry k w => exact ⟨rest, s.choice, k, .inl (runFor_effect h)⟩
    | noFormat => cases h
  · exact ⟨s.sched, s.choice + 1, s.cmdCh, runAgent_cases h⟩

/-! ### The main loop's units -/

/-- The main loop goes on to `m'` from a point `m` where no phase may be 32. -/
theorem State.Inv.goTo {s : State} {m m' : MainLoop} (h : s.Inv) (hm : s.main = m) (hlate : ∀ k, ¬ m.LateIn k)
    (hm' : m'.InRange) : State.Inv { s with main := m' } := by
  obtain ⟨hchan, -, hrest⟩ := h
  exact ⟨fun k => ⟨(hchan k).1, fun h32 => (hlate k (hm ▸ (hchan k).2 h32)).elim⟩, hm', hrest⟩

theorem afterAdvance_inRange (k : Ch) : (afterAdvance k).InRange := by
  unfold afterAdvance
  split <;> trivial

theorem afterPollChannel_inRange (k : Ch) : (afterPollChannel k).InRange := by
  unfold afterPollChannel
  split <;> trivial

/-- A good unit of channel `k`'s ADVANCE keeps the invariant, where no other channel's phase may be 32. -/
theorem State.Inv.advanceUnit {s : State} {k : Ch} {u : AdvanceUnit} (h : s.Inv)
    (hlate : ∀ j, j ≠ k → ¬ s.main.LateIn j) (hu : u.Good (s.chan k)) : (s.advanceUnit k u).Inv := by
  obtain ⟨hchan, -, hrest⟩ := h
  have hin : (s.chan k).InRange := (hchan k).1
  have inv_of_channel (hk : ((s.advanceUnit k u).chan k).InRange ∧
      (((s.advanceUnit k u).chan k).phase.toNat = 32 → (s.advanceUnit k u).main.LateIn k))
      (hm : (s.advanceUnit k u).main.InRange) : (s.advanceUnit k u).Inv := by
    refine ⟨fun j => ?_, hm, by simpa using hrest⟩
    by_cases hj : j = k
    · exact hj ▸ hk
    · rw [State.chan_advanceUnit_ne s u hj]
      exact ⟨(hchan j).1, fun h32 => (hlate j hj ((hchan j).2 h32)).elim⟩
  cases u with
  | write w p =>
    obtain ⟨hw, hp, h32⟩ := hu
    rw [State.chan_advanceUnit_write] at inv_of_channel
    exact inv_of_channel ⟨Channel.write_inRange hin hw, fun g => ⟨rfl, h32 g⟩⟩ hp
  | last w =>
    obtain ⟨hw, hne⟩ := hu
    rw [State.chan_advanceUnit_last] at inv_of_channel
    exact inv_of_channel ⟨Channel.write_inRange hin hw, fun g => absurd g hne⟩ (afterAdvance_inRange k)
  | done => exact inv_of_channel ⟨hin, fun g => absurd g hu⟩ (afterAdvance_inRange k)

theorem State.Inv.beginAdvance {s : State} {k : Ch} (h : s.Inv) (hm : s.main = .advance k) :
    (s.beginAdvance k).Inv := by
  obtain ⟨hchan, -⟩ := id h
  obtain ⟨⟨-, -, -, -, hend, -⟩, h32⟩ := hchan k
  rw [hm] at h32
  unfold State.beginAdvance
  split
  · exact ((Effect.advance k s.flasher).inv h).goTo hm (fun _ => id) (afterAdvance_inRange k)
  · exact h.advanceUnit (fun j _ => by simp [hm]) (Channel.beginUnit_good _ _ hend h32)

theorem State.Inv.writing {s : State} {k : Ch} {p : AdvancePoint} (h : s.Inv) (hm : s.main = .writing k p) :
    (s.advanceUnit k ((s.chan k).unitAt s.cfg p)).Inv := by
  obtain ⟨hchan, hpoint, -⟩ := id h
  obtain ⟨hin, h32⟩ := hchan k
  rw [hm] at hpoint h32
  exact h.advanceUnit (fun j hj => by simp [hm, Ne.symm hj])
    (Channel.unitAt_good s.cfg hin hpoint fun g => (h32 g).2)

theorem State.Inv.unitS1 {s : State} {m : MainLoop} (h : s.Inv) (hm : s.main = m) (hlate : ∀ k, ¬ m.LateIn k) :
    s.unitS1.Inv :=
  h.goTo hm hlate (by split <;> trivial)

/-- Every unit of the main loop keeps the invariant. -/
theorem State.Inv.mainUnit {s : State} (h : s.Inv) (poll : Bool) : (s.mainUnit poll).Inv := by
  unfold State.mainUnit
  cases hm : s.main with
  | serviceRead => exact h.unitS1 hm fun _ => id
  | serviceClear => exact h.goTo (m' := .advance 0) hm (fun _ => id) trivial
  | advance k => exact h.beginAdvance hm
  | writing k p => exact h.writing hm
  | serviceDone =>
    cases poll with
    | true => exact ((Effect.debounce s.senseRaw).inv h).goTo (m' := .pollBusy) hm (fun _ => id) trivial
    | false => exact h.unitS1 hm fun _ => id
  | pollBusy => exact h.goTo hm (fun _ => id) (by split <;> trivial)
  | pollAspect k => exact h.goTo hm (fun _ => id) trivial
  | pollOption k a => exact h.goTo hm (fun _ => id) trivial
  | pollTarget k a o => exact ((Effect.setTarget k (decodeAspect a)).inv h).goTo hm (fun _ => id) trivial
  | pollSetOptions k o =>
    exact ((Effect.setOptions k o).inv h).goTo hm (fun _ => id) (afterPollChannel_inRange k)

theorem State.beginAdvance_cfg (s : State) (k : Ch) : (s.beginAdvance k).cfg = s.cfg := by
  unfold State.beginAdvance
  split
  · rfl
  · exact State.advanceUnit_cfg s k _

theorem State.mainUnit_cfg (s : State) (poll : Bool) : (s.mainUnit poll).cfg = s.cfg := by
  unfold State.mainUnit
  cases s.main with
  | advance k => exact s.beginAdvance_cfg k
  | writing k p => exact State.advanceUnit_cfg s k _
  | serviceDone => cases poll <;> rfl
  | _ => rfl

/-! ### The statements -/

/-- Settles O16: the schedule, the free choices and the selected channel play no part in the invariant, so a step keeps
it as its instruction's effect or its main-loop unit does. -/
theorem everyStepKeepsTheStateGood : Obligations.EveryStepKeepsTheStateGood := by
  intro s t hs hstep
  obtain ⟨sched, choice, cmdCh, heffect | ⟨poll, rfl⟩⟩ := step_cases hstep
  · exact heffect.inv hs
  · exact State.Inv.mainUnit (s := { s with sched, choice, cmdCh }) hs poll

/-- Settles O17: an instruction moves each channel as a command, an ADVANCE, a table entry or RESET does. -/
theorem everyOperationLeavesChannelsAtRest : Obligations.EveryOperationLeavesChannelsAtRest :=
  fun _ _ _ hs hexec k => ((exec_effect hexec).chan_movesTo k).atRest (hs k)

/-- Settles O19: no instruction's effect and no unit of the main loop writes the parameters. -/
theorem noStepWritesTheTables : Obligations.NoStepWritesTheTables := by
  intro s t hstep
  obtain ⟨sched, choice, cmdCh, heffect | ⟨poll, rfl⟩⟩ := step_cases hstep
  · exact heffect.cfg_eq
  · exact State.mainUnit_cfg _ poll

theorem State.chan_reset (k : Ch) : State.reset.chan k = Channel.atReset := Bank.get_ofFn _ _

theorem Channel.atReset_atRest : Channel.atReset.AtRest := by decide

/-- Settles O15: every channel holds the reset record, dark, Off and at phase 0, and the counters are 0. -/
theorem stateAfterResetIsGood : Obligations.StateAfterResetIsGood := by
  have hrest (k : Ch) : (State.reset.chan k).AtRest := State.chan_reset k ▸ Channel.atReset_atRest
  refine ⟨⟨fun k => ?_, trivial, PNat.pos _, PNat.pos _, rfl, State.reset_wf⟩, hrest, fun k => ?_, rfl⟩
  · obtain ⟨hin, hlt, -⟩ := hrest k
    exact ⟨hin, fun h32 => absurd h32 (Nat.ne_of_lt hlt)⟩
  · rw [State.Settled, State.chan_reset]
    exact ⟨rfl, rfl, fun c => by cases c <;> rfl⟩

end Sys2Proof.Machine
end

section
/-! PROOFS of 20 R60: which operations write which fields. The idea: `writtenBy` gives each instruction the groups of
fields it writes; one theorem, `exec_keepsBut`, says that every other group is as it was, and each group's writers are
read off the table backwards. And 20 R50: HOST_WRITE outside the register map. -/

namespace Sys2Proof.Machine

/-! ### The two groups of fields of a channel record -/

/-- The duties, the endpoints and the phase are as they were. -/
def Channel.SameTransition (r t : Channel) : Prop :=
  t.redDuty = r.redDuty ∧ t.yellowDuty = r.yellowDuty ∧ t.greenDuty = r.greenDuty ∧
    t.startAspect = r.startAspect ∧ t.endAspect = r.endAspect ∧ t.phase = r.phase

/-- The requested aspect and the options are as they were. -/
def Channel.SameCommands (r t : Channel) : Prop :=
  t.nextAspect = r.nextAspect ∧ t.optSearchlight = r.optSearchlight ∧ t.optInvert = r.optInvert

theorem Channel.SameTransition.refl (r : Channel) : r.SameTransition r := ⟨rfl, rfl, rfl, rfl, rfl, rfl⟩

theorem Channel.SameCommands.refl (r : Channel) : r.SameCommands r := ⟨rfl, rfl, rfl⟩

theorem Channel.settle_sameCommands (r : Channel) : r.SameCommands r.settle := by
  unfold Channel.settle
  split <;> exact .refl r

theorem Channel.advance_sameCommands_of_transition {cfg : Config} (f : Bool) {r : Channel}
    (h : r.startAspect ≠ r.endAspect) : r.SameCommands (r.advance cfg f) := by
  rcases advance_cases (cfg := cfg) f h with ⟨x, y, z, p, e, -, -⟩ | e <;> rw [e]
  · exact .refl r
  · exact settle_sameCommands { r with startAspect := r.endAspect, phase := 0 }

theorem Channel.advance_sameCommands (cfg : Config) (f : Bool) (r : Channel) :
    r.SameCommands (r.advance cfg f) := by
  by_cases hsteady : r.startAspect = r.endAspect
  · by_cases htarget : effective r.nextAspect f = r.endAspect
    · rw [advance_of_steady f hsteady htarget]
      exact settle_sameCommands r
    · rw [advance_of_begin f hsteady htarget]
      exact advance_sameCommands_of_transition f fun he => htarget (he.symm.trans hsteady)
  · exact advance_sameCommands_of_transition f hsteady

theorem Channel.stepPhase_sameCommands (len : Nat) (r : Channel) : r.SameCommands (r.stepPhase len) := by
  unfold Channel.stepPhase
  split <;> exact .refl r

theorem Channel.runEntry_sameCommands (cfg : Config) (e : Entry) (r : Channel) :
    r.SameCommands (r.runEntry cfg e) := by
  have hlen := (tableLen_bounds (routeTable cfg r.route)).2
  unfold Channel.runEntry
  split
  · exact .refl r
  · split
    · exact .refl r
    · next hin =>
      split
      · exact stepPhase_sameCommands _ r
      · rcases takeEntry_cases r.route e (Nat.not_le.1 hin) hlen with ⟨x, y, z, p, g, -, -⟩ | ⟨x, y, z, g⟩ <;>
          rw [g] <;> exact .refl r

/-! ### The groups of fields of the state, and which of them an instruction writes -/

/-- The fields that 20 R60 gives the same writers. -/
inductive FieldGroup where
  /-- Duties, endpoints and phase of the channels. -/
  | transition
  /-- Requested aspects and options of the channels. -/
  | commands
  | counters
  | wrapFlag
  | regmap
  | debouncer
  | lines
  | busBusy
  | senseRaw
  | result

/-- The fields of the group are as they were. -/
def FieldGroup.Same (g : FieldGroup) (s t : State) : Prop :=
  match g with
  | .transition => ∀ k : Ch, (s.chan k).SameTransition (t.chan k)
  | .commands => ∀ k : Ch, (s.chan k).SameCommands (t.chan k)
  | .counters => t.pwmPhase = s.pwmPhase ∧ t.flasher = s.flasher ∧ t.flashCount = s.flashCount ∧
      t.msAcc = s.msAcc ∧ t.msCount = s.msCount
  | .wrapFlag => t.updateFlag = s.updateFlag
  | .regmap => SameRegmap s t
  | .debouncer => SameDebouncer s t
  | .lines => SameOutputs s t
  | .busBusy => t.busBusy = s.busBusy
  | .senseRaw => t.senseRaw = s.senseRaw
  | .result => t.result = s.result

theorem FieldGroup.Same.refl (g : FieldGroup) (s : State) : g.Same s s := by
  cases g with
  | transition => exact fun k => .refl _
  | commands => exact fun k => .refl _
  | counters => exact ⟨rfl, rfl, rfl, rfl, rfl⟩
  | regmap => exact fun _ => rfl
  | debouncer => exact ⟨rfl, rfl, rfl⟩
  | lines => exact fun _ => rfl
  | _ => exact Eq.refl _

/-- The groups an instruction writes (20 R60, 70 R231; command bytes and table entries by log entries 10 and 12). -/
def writtenBy (i : Instr) : List FieldGroup :=
  match i with
  | .aspectOff | .aspectGreen | .aspectFlashGreen | .aspectYellow | .aspectFlashYellow | .aspectRed
  | .aspectFlashRed | .aspectLunar | .aspectInvalid08 _ | .aspectInvalid10 _ | .aspectInvalid20 _
  | .aspectInvalid40 _ | .aspectInvalid80 _ => [.commands]
  | .optionPolCommonAnode _ | .optionPolCommonCathode _ | .optionPolFromSense _ | .optionPolInvalid _
  | .optionTopoThreeLamp _ | .optionTopoSearchlight _ | .optionTopoInvalid2 _ _
  | .optionTopoInvalid4 _ _ => [.commands]
  | .tableEntry _ _ _ | .advance _ _ => [.transition]
  | .reset => [.transition, .commands, .counters, .wrapFlag, .debouncer, .lines]
  | .setTarget _ _ | .setOptions _ _ => [.commands]
  | .drive _ _ => [.lines]
  | .tick => [.counters, .wrapFlag, .lines]
  | .service => [.transition, .wrapFlag]
  | .poll => [.commands, .debouncer]
  | .debInit _ => [.debouncer]
  | .debSample _ => [.debouncer, .result]
  | .debState => [.result]
  | .hostWrite _ _ | .hostWriteUnread _ _ => [.regmap]
  | .hostBusy _ => [.busBusy]
  | .hostSense _ => [.senseRaw]

/-! ### Every operation keeps the groups it does not write -/

/-- Every group but those listed is as it was. -/
def KeepsBut (ws : List FieldGroup) (s t : State) : Prop := ∀ g : FieldGroup, g ∉ ws → g.Same s t

/-- A relation that every record bears to itself and the replaced record to its replacement. -/
theorem State.setChan_rel {s : State} {k : Ch} {c : Channel} {R : Channel → Channel → Prop} (hrefl : ∀ r, R r r)
    (h : R (s.chan k) c) (j : Ch) : R (s.chan j) ((s.setChan k c).chan j) := by
  by_cases hj : j = k
  · subst hj
    rwa [State.chan_setChan_same]
  · rw [State.chan_setChan_ne s c hj]
    exact hrefl _

theorem State.setChan_keepsBut_commands {s : State} {k : Ch} {c : Channel} (h : (s.chan k).SameTransition c) :
    KeepsBut [.commands] s (s.setChan k c) := by
  intro g hg
  have hsame := FieldGroup.Same.refl g s
  cases g with
  | transition => exact State.setChan_rel .refl h
  | commands => simp at hg
  | _ => exact hsame

theorem State.setChan_keepsBut_transition {s : State} {k : Ch} {c : Channel} (h : (s.chan k).SameCommands c) :
    KeepsBut [.transition] s (s.setChan k c) := by
  intro g hg
  have hsame := FieldGroup.Same.refl g s
  cases g with
  | transition => simp at hg
  | commands => exact State.setChan_rel .refl h
  | _ => exact hsame

theorem State.setTarget_keepsBut (s : State) (k : Ch) (a : Aspect) : KeepsBut [.commands] s (s.setTarget k a) :=
  State.setChan_keepsBut_commands (.refl _)

theorem State.setOptions_keepsBut (s : State) (k : Ch) (b : Byte) : KeepsBut [.commands] s (s.setOptions k b) :=
  State.setChan_keepsBut_commands (.refl _)

theorem State.tick_keepsBut (s : State) : KeepsBut [.counters, .wrapFlag, .lines] s s.tick := by
  obtain ⟨hchans, hdeb, hmap, ⟨hbusy, hsense⟩, -, hresult, -⟩ := s.tick_keeps
  intro g hg
  cases g with
  | transition => exact fun k => hchans k ▸ .refl _
  | commands => exact fun k => hchans k ▸ .refl _
  | regmap => exact hmap
  | debouncer => exact hdeb
  | busBusy => exact hbusy
  | senseRaw => exact hsense
  | result => exact hresult
  | counters | wrapFlag | lines => simp at hg

theorem State.service_keepsBut (s : State) : KeepsBut [.transition, .wrapFlag] s s.service := by
  intro g hg
  have hsame := FieldGroup.Same.refl g s
  unfold State.service
  split
  · cases g with
    | transition | wrapFlag => simp at hg
    | commands => exact fun k => State.chan_advanceAll _ _ k ▸ Channel.advance_sameCommands _ _ _
    | _ => exact hsame
  · exact hsame

theorem State.poll_keepsBut (s : State) : KeepsBut [.commands, .debouncer] s s.poll := by
  intro g hg
  have hsame := FieldGroup.Same.refl g s
  unfold State.poll
  cases g with
  | commands | debouncer => simp at hg
  | transition =>
    split
    · exact fun k => .refl _
    · exact fun k => State.chan_takeCommands _ k ▸ .refl _
  | _ => split <;> exact hsame

theorem State.hostWrite_of_lt {s : State} {a : Byte} (v : Byte) (h : a.toNat < 24) :
    s.hostWrite a v = .next (s.writeReg ⟨a.toNat, h⟩ v) := dif_pos h

theorem State.hostWrite_of_ge {a : Byte} (s : State) (v : Byte) (h : 24 ≤ a.toNat) :
    s.hostWrite a v = .fault .noSuchRegister := dif_neg (Nat.not_lt.2 h)

theorem State.writeReg_keepsBut (s : State) (a : Fin 24) (v : Byte) : KeepsBut [.regmap] s (s.writeReg a v) := by
  intro g hg
  have hsame := FieldGroup.Same.refl g s
  cases g with
  | regmap => simp at hg
  | _ => exact hsame

theorem State.hostWrite_keepsBut {s t : State} {a v : Byte} (h : s.hostWrite a v = .next t) :
    KeepsBut [.regmap] s t := by
  rcases Nat.lt_or_ge a.toNat 24 with hlt | hge
  · obtain rfl := Host.Outcome.next.inj ((State.hostWrite_of_lt v hlt).symm.trans h)
    exact s.writeReg_keepsBut _ v
  · simp [State.hostWrite_of_ge s v hge] at h

/-- What an instruction leaves unchanged, said once: the groups of fields that it does not write. -/
theorem exec_keepsBut {i : Instr} {s t : State} (h : exec i s = .next t) : KeepsBut (writtenBy i) s t := by
  cases i with
  | aspectOff | aspectGreen | aspectFlashGreen | aspectYellow | aspectFlashYellow | aspectRed | aspectFlashRed
  | aspectLunar | aspectInvalid08 | aspectInvalid10 | aspectInvalid20 | aspectInvalid40 | aspectInvalid80
  | setTarget => cases h; exact s.setTarget_keepsBut _ _
  | optionPolCommonAnode | optionPolCommonCathode | optionPolFromSense | optionPolInvalid | optionTopoThreeLamp
  | optionTopoSearchlight | optionTopoInvalid2 | optionTopoInvalid4 | setOptions =>
    cases h; exact s.setOptions_keepsBut _ _
  | tableEntry => cases h; exact State.setChan_keepsBut_transition (Channel.runEntry_sameCommands _ _ _)
  | advance => cases h; exact State.setChan_keepsBut_transition (Channel.advance_sameCommands _ _ _)
  | tick => cases h; exact s.tick_keepsBut
  | service => cases h; exact s.service_keepsBut
  | poll => cases h; exact s.poll_keepsBut
  | hostWrite | hostWriteUnread => exact State.hostWrite_keepsBut h
  | reset | drive | debInit | debSample | debState | hostBusy | hostSense =>
    cases h
    intro g hg
    have hsame := FieldGroup.Same.refl g s
    cases g <;> simp [writtenBy] at hg <;> exact hsame

/-! ### The writers of each group -/

section Writers

variable {i : Instr}

theorem transition_mem_writtenBy : .transition ∈ writtenBy i ↔
    i = .reset ∨ (∃ k f, i = .advance k f) ∨ i = .service ∨ ∃ d u r, i = .tableEntry d u r := by
  cases i <;> simp [writtenBy]

theorem commands_mem_writtenBy : .commands ∈ writtenBy i ↔
    i = .reset ∨ (∃ k b, i = .setTarget k b) ∨ (∃ k b, i = .setOptions k b) ∨ i = .poll ∨
      ¬ (formatOf i = .opWord ∨ formatOf i = .tableEntry) := by
  cases i <;> simp [writtenBy, formatOf]

theorem counters_mem_writtenBy : .counters ∈ writtenBy i ↔ i = .reset ∨ i = .tick := by
  cases i <;> simp [writtenBy]

theorem wrapFlag_mem_writtenBy : .wrapFlag ∈ writtenBy i ↔ i = .reset ∨ i = .tick ∨ i = .service := by
  cases i <;> simp [writtenBy]

theorem regmap_mem_writtenBy :
    .regmap ∈ writtenBy i ↔ (∃ a v, i = .hostWrite a v) ∨ ∃ a v, i = .hostWriteUnread a v := by
  cases i <;> simp [writtenBy]

theorem debouncer_mem_writtenBy : .debouncer ∈ writtenBy i ↔
    i = .reset ∨ (∃ v, i = .debInit v) ∨ (∃ v, i = .debSample v) ∨ i = .poll := by
  cases i <;> simp [writtenBy]

theorem lines_mem_writtenBy : .lines ∈ writtenBy i ↔ i = .reset ∨ (∃ k p, i = .drive k p) ∨ i = .tick := by
  cases i <;> simp [writtenBy]

theorem busBusy_mem_writtenBy : .busBusy ∈ writtenBy i ↔ ∃ l, i = .hostBusy l := by
  cases i <;> simp [writtenBy]

theorem senseRaw_mem_writtenBy : .senseRaw ∈ writtenBy i ↔ ∃ v, i = .hostSense v := by
  cases i <;> simp [writtenBy]

theorem result_mem_writtenBy : .result ∈ writtenBy i ↔ (∃ v, i = .debSample v) ∨ i = .debState := by
  cases i <;> simp [writtenBy]

end Writers

/-! ### The statements -/

/-- Settles O20: an instruction keeps every group of fields of which it is no writer; a TICK only sets the wrap flag,
and no effect touches the parameters. -/
theorem eachFieldHasItsWriters : Obligations.EachFieldHasItsWriters := by
  intro i s t hexec hreset
  have hkeeps := exec_keepsBut hexec
  refine ⟨fun hadvance hservice hentry => hkeeps .transition ?_,
    fun htarget hoptions hpoll hformat => hkeeps .commands ?_,
    fun htick => hkeeps .counters ?_,
    fun htick hservice => hkeeps .wrapFlag ?_,
    ?tickKeepsFlag,
    fun hwrite hunread => hkeeps .regmap ?_,
    fun hinit hsample hpoll => hkeeps .debouncer ?_,
    fun hdrive htick => hkeeps .lines ?_,
    fun hbusy => hkeeps .busBusy ?_,
    fun hsense => hkeeps .senseRaw ?_,
    fun hsample hstate => hkeeps .result ?_,
    (exec_effect hexec).cfg_eq⟩
  case tickKeepsFlag =>
    rintro rfl hflag
    cases hexec
    rw [State.tick_updateFlag, hflag, Bool.true_or]
  · simp [transition_mem_writtenBy, hreset, hadvance, hservice, hentry]
  · simp [commands_mem_writtenBy, hreset, htarget, hoptions, hpoll, hformat]
  · simp [counters_mem_writtenBy, hreset, htick]
  · simp [wrapFlag_mem_writtenBy, hreset, htick, hservice]
  · simp [regmap_mem_writtenBy, hwrite, hunread]
  · simp [debouncer_mem_writtenBy, hreset, hinit, hsample, hpoll]
  · simp [lines_mem_writtenBy, hreset, hdrive, htick]
  · simp [busBusy_mem_writtenBy, hbusy]
  · simp [senseRaw_mem_writtenBy, hsense]
  · simp [result_mem_writtenBy, hsample, hstate]

/-- Settles O55: both rows of HOST_WRITE are the one byte write, whose bounds test fails. -/
theorem hostWriteOutsideTheMapFaults : Obligations.HostWriteOutsideTheMapFaults :=
  fun _ v s h => ⟨s.hostWrite_of_ge v h, s.hostWrite_of_ge v h⟩

end Sys2Proof.Machine
end

section
/-! PROOFS of 30 R70 to R79: words and their instructions. The idea: an operation word is `opWord op idx arg` with 0 in
its reserved bits, and each row of R76 is inverted once, `decodeRow_ok`. The bytes and the table entry are two or three
bit fields side by side. -/

namespace Sys2Proof

/-! ### Guarded refusals -/

/-- The decoder refuses. -/
def Refused (d : Except DecodeError Instr) : Prop := ∃ e, d = .error e

@[simp] theorem refused_error (e : DecodeError) : Refused (.error e) := ⟨e, rfl⟩

@[simp] theorem not_refused_ok (i : Instr) : ¬ Refused (.ok i) := nofun

section Guard

variable {p : Prop} [Decidable p] {e : DecodeError} {d : Except DecodeError Instr}

theorem guard_eq_ok_iff {i : Instr} : (if p then .error e else d) = .ok i ↔ ¬ p ∧ d = .ok i := by
  by_cases hp : p <;> simp [hp]

theorem refused_guard_iff : Refused (if p then .error e else d) ↔ p ∨ Refused d := by
  by_cases hp : p <;> simp [hp]

end Guard

/-! ### The operands of 30 R76 -/

section Operands

variable {i j : Instr} {idx arg : Byte} {f : Ch → Except DecodeError Instr}

theorem byte_ne_zero_iff {b : Byte} : b ≠ 0 ↔ b.toNat ≠ 0 := not_congr BitVec.toNat_inj.symm

theorem extractLsb'_one_seven_eq_zero_iff {b : Byte} : b.extractLsb' 1 7 = 0 ↔ b.toNat < 2 := by
  rw [← BitVec.toNat_inj, BitVec.extractLsb'_toNat, Nat.shiftRight_eq_div_pow]
  change b.toNat / 2 % 128 = 0 ↔ _
  omega

theorem extractLsb'_five_three_eq_zero_iff {b : Byte} : b.extractLsb' 5 3 = 0 ↔ b.toNat < 32 := by
  rw [← BitVec.toNat_inj, BitVec.extractLsb'_toNat, Nat.shiftRight_eq_div_pow]
  change b.toNat / 32 % 8 = 0 ↔ _
  omega

theorem getLsbD_zero_toNat_of_lt {b : Byte} (h : b.toNat < 2) : (b.getLsbD 0).toNat = b.toNat := by
  rw [BitVec.getLsbD, Nat.testBit_zero]
  interval_cases b.toNat <;> rfl

theorem extractLsb'_zero_five_toNat_of_lt {b : Byte} (h : b.toNat < 32) : (b.extractLsb' 0 5).toNat = b.toNat :=
  Nat.mod_eq_of_lt h

theorem decodeBare_eq_ok_iff : decodeBare i idx arg = .ok j ↔ idx = 0 ∧ arg = 0 ∧ i = j := by
  simp only [decodeBare, guard_eq_ok_iff, not_not, Except.ok.injEq]

theorem decodeArg_eq_ok_iff : decodeArg i idx = .ok j ↔ idx = 0 ∧ i = j := by
  simp only [decodeArg, guard_eq_ok_iff, not_not, Except.ok.injEq]

theorem decodeChannel_eq_ok_iff : decodeChannel idx f = .ok i ↔ ∃ k : Ch, k.val = idx.toNat ∧ f k = .ok i := by
  unfold decodeChannel
  split
  · next hlt =>
    constructor
    · exact fun hf => ⟨_, rfl, hf⟩
    · rintro ⟨k, hk, hf⟩
      obtain rfl : k = ⟨idx.toNat, hlt⟩ := Fin.ext hk
      exact hf
  · next hge =>
    constructor
    · nofun
    · rintro ⟨k, hk, -⟩
      omega

theorem toNat_ofNat_channel (k : Ch) : (BitVec.ofNat 8 k.val).toNat = k.val := Nat.mod_eq_of_lt (by omega)

theorem toNat_setWidth_ofBool (l : Bool) : ((BitVec.ofBool l).setWidth 8).toNat = l.toNat := by cases l <;> rfl

theorem decodeChannel_ofNat (k : Ch) : decodeChannel (BitVec.ofNat 8 k.val) f = f k := by
  simp only [decodeChannel, toNat_ofNat_channel, k.isLt, dite_true]

theorem decodeHostWrite_eq_ok_iff : decodeHostWrite idx arg = .ok i ↔
    idx.toNat < 16 ∧ .hostWrite idx arg = i ∨ 16 ≤ idx.toNat ∧ idx.toNat < 24 ∧ .hostWriteUnread idx arg = i := by
  unfold decodeHostWrite
  split
  · next hlt => simp [hlt, Nat.not_le.2 hlt]
  · next hge =>
    split
    · next hlt => simp [hge, hlt, Nat.not_lt.1 hge]
    · next hge' => simp [hge, hge']

theorem refused_decodeBare_iff : Refused (decodeBare i idx arg) ↔ idx.toNat ≠ 0 ∨ arg.toNat ≠ 0 := by
  simp only [decodeBare, refused_guard_iff, byte_ne_zero_iff, not_refused_ok, or_false]

theorem refused_decodeArg_iff : Refused (decodeArg i idx) ↔ idx.toNat ≠ 0 := by
  simp only [decodeArg, refused_guard_iff, byte_ne_zero_iff, not_refused_ok, or_false]

theorem refused_decodeChannel_iff {p : Prop} (h : ∀ k, Refused (f k) ↔ p) :
    Refused (decodeChannel idx f) ↔ 8 ≤ idx.toNat ∨ p := by
  unfold decodeChannel
  split
  · simp [h]; omega
  · simp; omega

theorem refused_decodeHostWrite_iff : Refused (decodeHostWrite idx arg) ↔ 24 ≤ idx.toNat := by
  unfold decodeHostWrite
  split
  · simp; omega
  · split <;> simp <;> omega

end Operands

/-! ### The rows of 30 R76 -/

theorem decodeRow_reserved (n : Nat) (idx arg : Byte) : decodeRow (n + 14) idx arg = .error .reservedOpcode := rfl

/-- An accepted row, inverted: its instruction is well formed and is written with the row's fields. -/
theorem decodeRow_ok {op : Nat} {idx arg : Byte} {i : Instr} (h : decodeRow op idx arg = .ok i) :
    WellFormed i = true ∧ formatOf i = .opWord ∧ encode i = opWord op idx.toNat arg.toNat := by
  match op, h with
  | 0x0, h | 0x4, h | 0x5, h | 0x6, h | 0x9, h =>
    obtain ⟨rfl, rfl, rfl⟩ := decodeBare_eq_ok_iff.1 h
    exact ⟨rfl, rfl, rfl⟩
  | 0x7, h | 0x8, h | 0xC, h =>
    obtain ⟨rfl, rfl⟩ := decodeArg_eq_ok_iff.1 h
    exact ⟨rfl, rfl, rfl⟩
  | 0x1, h | 0xD, h =>
    rw [decodeRow, decodeChannel_eq_ok_iff] at h
    obtain ⟨k, hk, ⟨⟩⟩ := h
    exact ⟨rfl, rfl, by rw [encode, hk]⟩
  | 0x2, h =>
    rw [decodeRow, decodeChannel_eq_ok_iff] at h
    obtain ⟨k, hk, hadvance⟩ := h
    rw [guard_eq_ok_iff, not_ne_iff, extractLsb'_one_seven_eq_zero_iff] at hadvance
    obtain ⟨harg, ⟨⟩⟩ := hadvance
    exact ⟨rfl, rfl, by rw [encode, hk, getLsbD_zero_toNat_of_lt harg]⟩
  | 0x3, h =>
    rw [decodeRow, decodeChannel_eq_ok_iff] at h
    obtain ⟨k, hk, hdrive⟩ := h
    rw [guard_eq_ok_iff, not_ne_iff, extractLsb'_five_three_eq_zero_iff] at hdrive
    obtain ⟨harg, ⟨⟩⟩ := hdrive
    exact ⟨rfl, rfl, by rw [encode, hk, extractLsb'_zero_five_toNat_of_lt harg]⟩
  | 0xA, h =>
    rcases decodeHostWrite_eq_ok_iff.1 h with ⟨hlt, rfl⟩ | ⟨hge, hlt, rfl⟩
    · exact ⟨decide_eq_true hlt, rfl, rfl⟩
    · exact ⟨decide_eq_true ⟨hge, hlt⟩, rfl, rfl⟩
  | 0xB, h =>
    rw [decodeRow, guard_eq_ok_iff, guard_eq_ok_iff, not_ne_iff, not_ne_iff, extractLsb'_one_seven_eq_zero_iff] at h
    obtain ⟨rfl, harg, ⟨⟩⟩ := h
    exact ⟨rfl, rfl, by rw [encode, getLsbD_zero_toNat_of_lt harg]; rfl⟩
  | n + 14, h => simp [decodeRow_reserved] at h

/-- The constraint that 30 R76 puts on `idx` and `arg` in the row of `op` is broken, or R77 reserves `op`. -/
def BreaksRow (op idx arg : Nat) : Prop :=
  op = 0xE ∨ op = 0xF ∨
    ((op = 0x0 ∨ op = 0x4 ∨ op = 0x5 ∨ op = 0x6 ∨ op = 0x9) ∧ (idx ≠ 0 ∨ arg ≠ 0)) ∨
    ((op = 0x7 ∨ op = 0x8 ∨ op = 0xC) ∧ idx ≠ 0) ∨
    ((op = 0x1 ∨ op = 0x2 ∨ op = 0x3 ∨ op = 0xD) ∧ 8 ≤ idx) ∨
    (op = 0x2 ∧ 2 ≤ arg) ∨ (op = 0x3 ∧ 32 ≤ arg) ∨
    (op = 0xA ∧ 24 ≤ idx) ∨ (op = 0xB ∧ (idx ≠ 0 ∨ 2 ≤ arg))

theorem refused_decodeRow_iff {op : Nat} (hop : op < 16) (idx arg : Byte) :
    Refused (decodeRow op idx arg) ↔ BreaksRow op idx.toNat arg.toNat := by
  unfold BreaksRow
  match op, hop with
  | 0x0, _ | 0x4, _ | 0x5, _ | 0x6, _ | 0x9, _ => simp [decodeRow, refused_decodeBare_iff]
  | 0x7, _ | 0x8, _ | 0xC, _ => simp [decodeRow, refused_decodeArg_iff]
  | 0x1, _ | 0xD, _ =>
    rw [decodeRow, refused_decodeChannel_iff (p := False) fun k => by simp]
    simp
  | 0x2, _ =>
    rw [decodeRow, refused_decodeChannel_iff (p := 2 ≤ arg.toNat) fun k => by
      simp only [refused_guard_iff, ne_eq, extractLsb'_one_seven_eq_zero_iff, Nat.not_lt, not_refused_ok, or_false]]
    simp
  | 0x3, _ =>
    rw [decodeRow, refused_decodeChannel_iff (p := 32 ≤ arg.toNat) fun k => by
      simp only [refused_guard_iff, ne_eq, extractLsb'_five_three_eq_zero_iff, Nat.not_lt, not_refused_ok, or_false]]
    simp
  | 0xA, _ => simp [decodeRow, refused_decodeHostWrite_iff]
  | 0xB, _ =>
    simp only [decodeRow, refused_guard_iff, byte_ne_zero_iff, ne_eq, extractLsb'_one_seven_eq_zero_iff, Nat.not_lt]
    simp
  | 0xE, _ | 0xF, _ => simp [decodeRow]
  | n + 16, hlt => omega

/-! ### Operation words -/

theorem extractLsb'_ofNat {width start len : Nat} (h : start + len ≤ width) (n : Nat) :
    (BitVec.ofNat width n).extractLsb' start len = BitVec.ofNat len (n / 2 ^ start) := by
  apply BitVec.eq_of_getLsbD_eq
  intro j hj
  have hw : start + j < width := by omega
  simp only [BitVec.getLsbD_extractLsb', BitVec.getLsbD_ofNat, Nat.testBit_div_two_pow, hj, hw, decide_true,
    Bool.true_and, Nat.add_comm j]

/-- The four fields of an operation word as digits of the number (30 R75). -/
theorem decode_opWord (w : Nat) : decode .opWord w =
    if w / 0x10000 % 16 ≠ 0 then .error .reservedBits
    else decodeRow (w / 0x100000 % 16) (BitVec.ofNat 8 (w / 0x100)) (BitVec.ofNat 8 w) := by
  have hreserved : BitVec.ofNat 4 (w / 0x10000) ≠ 0 ↔ w / 0x10000 % 16 ≠ 0 := not_congr BitVec.toNat_inj.symm
  rw [decode, decodeOpWord, extractLsb'_ofNat (by decide), extractLsb'_ofNat (by decide),
    extractLsb'_ofNat (by decide), extractLsb'_ofNat (by decide), BitVec.toNat_ofNat, Nat.pow_zero, Nat.div_one]
  simp only [hreserved, Nat.reducePow]

/-- A word put together from fields is read as the row of those fields. -/
theorem decode_opWord_opWord {op idx arg : Nat} {x y : Byte} (hop : op < 16) (hidx : x.toNat = idx)
    (harg : y.toNat = arg) : decode .opWord (opWord op idx arg) = decodeRow op x y := by
  have hx := x.isLt
  have hy := y.isLt
  have hreserved : opWord op idx arg / 0x10000 % 16 = 0 := by rw [opWord]; omega
  have hop' : opWord op idx arg / 0x100000 % 16 = op := by rw [opWord]; omega
  have hidx' : BitVec.ofNat 8 (opWord op idx arg / 0x100) = x := by
    rw [← BitVec.toNat_inj, BitVec.toNat_ofNat, opWord]; omega
  have harg' : BitVec.ofNat 8 (opWord op idx arg) = y := by
    rw [← BitVec.toNat_inj, BitVec.toNat_ofNat, opWord]; omega
  rw [decode_opWord, if_neg (not_not.2 hreserved), hop', hidx', harg']

/-! ### Bytes and table entries -/

theorem decodeAspectByte_of_ge {b : Byte} (h : 8 ≤ b.toNat) : decodeAspectByte b =
    if b.toNat < 0x10 then .aspectInvalid08 b else if b.toNat < 0x20 then .aspectInvalid10 b
    else if b.toNat < 0x40 then .aspectInvalid20 b else if b.toNat < 0x80 then .aspectInvalid40 b
    else .aspectInvalid80 b := by
  unfold decodeAspectByte
  split
  case h_9 => rfl
  all_goals omega

theorem decode_aspectByte (b : Byte) : decode .aspectByte b.toNat = .ok (decodeAspectByte b) := by
  rw [decode, BitVec.ofNat_toNat, BitVec.setWidth_eq]

theorem decode_optionPol (b : Byte) : decode .optionPol b.toNat = .ok (decodeOptionPol b) := by
  rw [decode, BitVec.ofNat_toNat, BitVec.setWidth_eq]

theorem decode_optionTopo (b : Byte) : decode .optionTopo b.toNat = .ok (decodeOptionTopo b) := by
  rw [decode, BitVec.ofNat_toNat, BitVec.setWidth_eq]

theorem toNat_append_eq_mul_add {m n : Nat} (hi : BitVec m) (lo : BitVec n) :
    (hi ++ lo).toNat = hi.toNat * 2 ^ n + lo.toNat := by
  rw [BitVec.toNat_append, ← Nat.shiftLeft_add_eq_or_of_lt lo.isLt, Nat.shiftLeft_eq]

/-- The POL row of a byte by its field, with the bits beside it as operand (30 R72). -/
theorem decodeOptionPol_append (pol : BitVec 2) (rest : BitVec 6) : decodeOptionPol (pol ++ rest) =
    if pol = 0 then .optionPolFromSense rest else if pol = 1 then .optionPolCommonCathode rest
    else if pol = 2 then .optionPolCommonAnode rest else .optionPolInvalid rest := by
  rw [decodeOptionPol, BitVec.extractLsb'_append_eq_left, BitVec.extractLsb'_append_eq_right]
  fin_cases pol <;> rfl

/-- The TOPO row of a byte by its field, with the bits beside it as operand (30 R72). -/
theorem decodeOptionTopo_append (hi : BitVec 5) (topo : BitVec 3) : decodeOptionTopo (hi ++ topo) =
    if topo = 0 then .optionTopoThreeLamp hi else if topo = 1 then .optionTopoSearchlight hi
    else if topo.toNat < 4 then .optionTopoInvalid2 hi topo else .optionTopoInvalid4 hi topo := by
  rw [decodeOptionTopo, BitVec.extractLsb'_append_eq_left, BitVec.extractLsb'_append_eq_right]
  fin_cases topo <;> rfl

theorem decodeOptionTopo_append_of_ge {hi : BitVec 5} {topo : BitVec 3} (h : 2 ≤ topo.toNat) :
    decodeOptionTopo (hi ++ topo) =
      if topo.toNat < 4 then .optionTopoInvalid2 hi topo else .optionTopoInvalid4 hi topo := by
  rw [decodeOptionTopo_append, if_neg (by bv_omega), if_neg (by bv_omega)]

theorem decode_tableEntry (down up red : BitVec 5) :
    decode .tableEntry (encode (.tableEntry down up red)) = .ok (.tableEntry down up red) := by
  have hdown := down.isLt
  have hup := up.isLt
  have hred := red.isLt
  have hbit : (BitVec.ofNat 16 (encode (.tableEntry down up red))).getLsbD 15 = false := by
    rw [BitVec.getLsbD_ofNat, Nat.testBit_lt_two_pow, Bool.and_false]
    rw [encode]; omega
  rw [decode, decodeEntryWord, hbit]
  simp only [extractLsb'_ofNat (width := 16) (start := 0) (len := 5) (by decide),
    extractLsb'_ofNat (width := 16) (start := 5) (len := 5) (by decide),
    extractLsb'_ofNat (width := 16) (start := 10) (len := 5) (by decide), encode, Except.ok.injEq,
    Instr.tableEntry.injEq, ← BitVec.toNat_inj, BitVec.toNat_ofNat]
  omega

theorem decode_encode_of_optionPol {pol : BitVec 2} {rest : BitVec 6} {i : Instr}
    (hword : encode i = pol.toNat * 2 ^ 6 + rest.toNat) (hrow : decodeOptionPol (pol ++ rest) = i) :
    decode .optionPol (encode i) = .ok i := by
  rw [hword, ← hrow, ← decode_optionPol, toNat_append_eq_mul_add]

theorem decode_encode_of_optionTopo {hi : BitVec 5} {topo : BitVec 3} {i : Instr}
    (hword : encode i = hi.toNat * 2 ^ 3 + topo.toNat) (hrow : decodeOptionTopo (hi ++ topo) = i) :
    decode .optionTopo (encode i) = .ok i := by
  rw [hword, ← hrow, ← decode_optionTopo, toNat_append_eq_mul_add]

/-! ### The statements -/

/-- Settles O1, row by row: the word's fields are the row's, and the row of these fields is accepted. -/
theorem decodeOfEncodeGivesInstruction : Obligations.DecodeOfEncodeGivesInstruction := by
  intro i h
  cases i with
  | aspectOff | aspectGreen | aspectFlashGreen | aspectYellow | aspectFlashYellow | aspectRed | aspectFlashRed
  | aspectLunar => rfl
  | aspectInvalid08 code | aspectInvalid10 code | aspectInvalid20 code | aspectInvalid40 code
  | aspectInvalid80 code =>
    rw [WellFormed, decide_eq_true_eq] at h
    rw [formatOf, encode, decode_aspectByte, decodeAspectByte_of_ge (by omega)]
    grind
  | optionPolCommonAnode rest => exact decode_encode_of_optionPol rfl (decodeOptionPol_append 2 rest)
  | optionPolCommonCathode rest => exact decode_encode_of_optionPol rfl (decodeOptionPol_append 1 rest)
  | optionPolFromSense rest =>
    exact decode_encode_of_optionPol (Nat.zero_add _).symm (decodeOptionPol_append 0 rest)
  | optionPolInvalid rest => exact decode_encode_of_optionPol rfl (decodeOptionPol_append 3 rest)
  | optionTopoThreeLamp hi => exact decode_encode_of_optionTopo rfl (decodeOptionTopo_append hi 0)
  | optionTopoSearchlight hi => exact decode_encode_of_optionTopo rfl (decodeOptionTopo_append hi 1)
  | optionTopoInvalid2 hi topo =>
    rw [WellFormed, decide_eq_true_eq] at h
    obtain ⟨hge, hlt⟩ := h
    exact decode_encode_of_optionTopo rfl ((decodeOptionTopo_append_of_ge hge).trans (if_pos hlt))
  | optionTopoInvalid4 hi topo =>
    rw [WellFormed, decide_eq_true_eq] at h
    exact decode_encode_of_optionTopo rfl
      ((decodeOptionTopo_append_of_ge (by omega)).trans (if_neg (by omega)))
  | tableEntry down up red => exact decode_tableEntry down up red
  | reset | tick | service | poll | debState => rfl
  | debInit v | debSample v | hostSense v =>
    exact (decode_opWord_opWord (x := 0) (by decide) rfl rfl).trans (decodeArg_eq_ok_iff.2 ⟨rfl, rfl⟩)
  | setTarget k b | setOptions k b =>
    rw [formatOf, encode, decode_opWord_opWord (by decide) (toNat_ofNat_channel k) rfl, decodeRow, decodeChannel_ofNat]
  | advance k flasher =>
    rw [formatOf, encode, decode_opWord_opWord (by decide) (toNat_ofNat_channel k) (toNat_setWidth_ofBool flasher),
      decodeRow, decodeChannel_ofNat]
    cases flasher <;> rfl
  | drive k p =>
    have hp : (p.setWidth 8).toNat = p.toNat := BitVec.toNat_setWidth_of_le (by decide)
    have hfield : (p.setWidth 8).extractLsb' 0 5 = p := by
      rw [BitVec.extractLsb'_setWidth_of_le (by decide), BitVec.extractLsb'_eq_self]
    rw [formatOf, encode, decode_opWord_opWord (by decide) (toNat_ofNat_channel k) hp, decodeRow,
      decodeChannel_ofNat, hfield, guard_eq_ok_iff, not_ne_iff, extractLsb'_five_three_eq_zero_iff, hp]
    exact ⟨p.isLt, rfl⟩
  | hostWrite a v =>
    rw [WellFormed, decide_eq_true_eq] at h
    exact (decode_opWord_opWord (by decide) rfl rfl).trans (decodeHostWrite_eq_ok_iff.2 (.inl ⟨h, rfl⟩))
  | hostWriteUnread a v =>
    rw [WellFormed, decide_eq_true_eq] at h
    obtain ⟨hge, hlt⟩ := h
    exact (decode_opWord_opWord (by decide) rfl rfl).trans (decodeHostWrite_eq_ok_iff.2 (.inr ⟨hge, hlt, rfl⟩))
  | hostBusy l => cases l <;> rfl

/-- Settles O4, word by word. -/
theorem wordsFromTheSpecDecode : Obligations.WordsFromTheSpecDecode := by
  refine ⟨?_, ?_, ?_, ?_, ?_, ?_, ?_, ?_, ?_, ?_, ?_, ?_, ?_, ?_⟩ <;> rfl

/-- Settles O2: the accepted row is inverted, and a word is put together from its four fields. -/
theorem acceptedOperationWordReencodes : Obligations.AcceptedOperationWordReencodes := by
  intro w i h
  rw [decode_opWord, guard_eq_ok_iff, not_not] at h
  obtain ⟨hreserved, hrow⟩ := h
  obtain ⟨hwf, hformat, hencode⟩ := decodeRow_ok hrow
  refine ⟨hwf, hformat, hencode.trans ?_⟩
  rw [opWord, BitVec.toNat_ofNat, BitVec.toNat_ofNat]
  have := w.isLt
  omega

/-- Settles O3: the reserved bits, or the row's own refusal. -/
theorem operationWordRefusedExactlyAsRuled : Obligations.OperationWordRefusedExactlyAsRuled := by
  intro w op reserved idx arg
  have hop : w.toNat / 0x100000 % 16 = op := Nat.mod_eq_of_lt (by have := w.isLt; omega)
  change Refused _ ↔ _
  rw [decode_opWord, refused_guard_iff, refused_decodeRow_iff (by omega), hop, BitVec.toNat_ofNat, BitVec.toNat_ofNat]
  change reserved ≠ 0 ∨ BreaksRow op idx arg ↔ _
  unfold BreaksRow
  rw [or_left_comm, or_left_comm (a := reserved ≠ 0)]

end Sys2Proof
end

section
/-! PROOFS of 30 R71, R72: what a command byte does, and how a step runs it. The idea: whichever row a byte decodes to,
it runs as SET_TARGET or SET_OPTIONS of the whole byte on `cmdCh`. -/

namespace Sys2Proof.Machine

open Claims

/-! ### Aspect bytes (30 R71) -/

theorem requests_of_exec {i : Instr} {a : Aspect} (h : ∀ s, exec i s = .next (s.setTarget s.cmdCh a)) :
    Requests i a :=
  fun s => ⟨_, h s, s.setTarget_onlyChan s.cmdCh a⟩

/-- Settles O6: each aspect row is a SET_TARGET of `cmdCh`. -/
theorem aspectRowsRequestTheirAspect : Obligations.AspectRowsRequestTheirAspect := by
  refine ⟨?_, ?_, ?_, ?_, ?_, ?_, ?_, ?_, fun code => ⟨?_, ?_, ?_, ?_, ?_⟩⟩ <;> exact requests_of_exec fun _ => rfl

theorem aspectOfCode_of_ge {n : Nat} (h : 8 ≤ n) : aspectOfCode n = .off := by
  unfold aspectOfCode
  repeat rw [if_neg (by omega)]

theorem exec_decodeAspectByte (b : Byte) (s : State) :
    exec (decodeAspectByte b) s = .next (s.setTarget s.cmdCh (aspectOfCode b.toNat)) := by
  rcases Nat.lt_or_ge b.toNat 8 with hlt | hge
  · unfold decodeAspectByte
    interval_cases b.toNat <;> rfl
  · rw [aspectOfCode_of_ge hge, decodeAspectByte_of_ge hge]
    split_ifs <;> rfl

/-- Settles O5: whichever row the byte has, it runs as a SET_TARGET to the aspect of its code. -/
theorem everyAspectByteRequestsItsAspect : Obligations.EveryAspectByteRequestsItsAspect :=
  fun b => ⟨_, decode_aspectByte b, requests_of_exec (exec_decodeAspectByte b)⟩

/-! ### Option bytes (30 R72) -/

theorem optionSearchlight_eq (b : Byte) : optionSearchlight b = decide (b.toNat % 8 = 1) := by
  rw [optionSearchlight, Bool.beq_eq_decide_eq, decide_eq_decide, ← BitVec.toNat_inj]
  rfl

theorem not_optionAnode_eq (b : Byte) (s : State) :
    (!optionAnode s.cfg.senseAnodeLevel b s.senseBit) = invertOf (b.toNat / 64) s := by
  have hpol : (b.extractLsb' 6 2).toNat = b.toNat / 64 := by
    rw [BitVec.extractLsb'_toNat, Nat.shiftRight_eq_div_pow]
    have := b.isLt
    omega
  have hlt : b.toNat / 64 < 4 := by have := b.isLt; omega
  rw [optionAnode, hpol]
  interval_cases b.toNat / 64 <;> rfl

theorem configures_of_exec {i : Instr} {b : Byte} {searchlight : Bool} {pol : Nat}
    (h : ∀ s, exec i s = .next (s.setOptions s.cmdCh b)) (hsearch : decide (b.toNat % 8 = 1) = searchlight)
    (hpol : b.toNat / 64 = pol) : Configures i searchlight (invertOf pol) := by
  intro s
  obtain ⟨hchan, honly⟩ := s.setOptions_onlyChan s.cmdCh b
  refine ⟨_, h s, ?_, honly⟩
  rw [hchan, Channel.setOptions, optionSearchlight_eq, not_optionAnode_eq, hsearch, hpol]

theorem configures_of_exec_pol {i : Instr} {pol : BitVec 2} {rest : BitVec 6}
    (h : ∀ s, exec i s = .next (s.setOptions s.cmdCh (pol ++ rest))) :
    Configures i (rest.toNat % 8 = 1) (invertOf pol.toNat) := by
  have hrest := rest.isLt
  have hbyte := toNat_append_eq_mul_add pol rest
  exact configures_of_exec h (decide_eq_decide.2 (by omega)) (by omega)

theorem configures_of_exec_topo {i : Instr} {hi : BitVec 5} {topo : BitVec 3}
    (h : ∀ s, exec i s = .next (s.setOptions s.cmdCh (hi ++ topo))) :
    Configures i (topo.toNat = 1) (invertOf (hi.toNat / 8)) := by
  have htopo := topo.isLt
  have hbyte := toNat_append_eq_mul_add hi topo
  exact configures_of_exec h (decide_eq_decide.2 (by omega)) (by omega)

/-- Settles O7: each row is a SET_OPTIONS of the byte whose two fields are the row's and the operand. -/
theorem optionRowsSetBothOptions : Obligations.OptionRowsSetBothOptions := by
  refine ⟨fun rest => ⟨?_, ?_, ?_, ?_⟩, fun hi => ⟨?_, ?_⟩, fun hi topo => ⟨fun h => ?_, fun h => ?_⟩⟩
  · exact configures_of_exec_pol (pol := 2) fun _ => rfl
  · exact configures_of_exec_pol (pol := 1) fun _ => rfl
  · exact configures_of_exec_pol (pol := 0) fun _ => rfl
  · exact configures_of_exec_pol (pol := 3) fun _ => rfl
  · exact configures_of_exec_topo (topo := 0) fun _ => rfl
  · exact configures_of_exec_topo (topo := 1) fun _ => rfl
  all_goals
    rw [WellFormed, decide_eq_true_eq] at h
    have hne : decide (topo.toNat = 1) = false := decide_eq_false (by omega)
    rw [← hne]
    exact configures_of_exec_topo fun _ => rfl

theorem exec_decodeOptionPol (b : Byte) (s : State) :
    exec (decodeOptionPol b) s = .next (s.setOptions s.cmdCh b) := by
  obtain ⟨pol, rest, rfl⟩ : ∃ (pol : BitVec 2) (rest : BitVec 6), b = pol ++ rest :=
    ⟨_, _, (BitVec.extractLsb'_append_extractLsb' (w := 2) (len := 6)).symm⟩
  rw [decodeOptionPol_append]
  fin_cases pol <;> rfl

theorem exec_decodeOptionTopo (b : Byte) (s : State) :
    exec (decodeOptionTopo b) s = .next (s.setOptions s.cmdCh b) := by
  obtain ⟨hi, topo, rfl⟩ : ∃ (hi : BitVec 5) (topo : BitVec 3), b = hi ++ topo :=
    ⟨_, _, (BitVec.extractLsb'_append_extractLsb' (w := 5) (len := 3)).symm⟩
  rw [decodeOptionTopo_append]
  fin_cases topo <;> rfl

/-- Settles O8: both rows of a byte hold the whole byte in their two fields. -/
theorem optionSpellingsAgree : Obligations.OptionSpellingsAgree :=
  fun b s => ⟨_, _, decode_optionPol b, decode_optionTopo b, exec_decodeOptionPol b s, exec_decodeOptionTopo b s⟩

/-! ### The step -/

theorem step_of_sched {s : State} {it : Item} {rest : List Item} (h : s.sched = it :: rest) :
    step s = runItem it { s with sched := rest } := by
  rw [step, h]

theorem runFor_of_decode {k : Ch} {f : Format} {w : Nat} {s : State} {i : Instr} (h : decode f w = .ok i) :
    runFor k f w s = exec i { s with cmdCh := k } := by
  rw [runFor, h, runDecoded]

/-- Settles O10: a step takes the item off, and a word for a channel selects it. -/
theorem stepRunsTheScheduledByteForItsChannel : Obligations.StepRunsTheScheduledByteForItsChannel := by
  intro s k b w rest i
  refine ⟨?_, ?_, ?_, ?_⟩ <;> exact fun hsched hdecode => (step_of_sched hsched).trans (runFor_of_decode hdecode)

theorem formatOfWidth_eq_none {n : Nat} (h8 : n ≠ 8) (h16 : n ≠ 16) (h24 : n ≠ 24) : formatOfWidth n = none := by
  unfold formatOfWidth
  split <;> trivial

/-- Settles O12: a refused word is no instruction to run, and a length of no format is placed as such. -/
theorem malformedWordHasNoStep : Obligations.MalformedWordHasNoStep := by
  intro s rest e
  refine ⟨fun w hsched hdecode => ?_, fun k w hsched hdecode => ?_, fun nbits w h8 h16 h24 => ?_⟩
  · rw [step_of_sched hsched, runItem, hdecode, runDecoded]
  · rw [step_of_sched hsched, runItem, runFor, hdecode, runDecoded]
  · have hnone := formatOfWidth_eq_none h8 h16 h24
    have hitem : itemOfWord s.cmdCh nbits w = .noFormat := by rw [itemOfWord, hnone]
    exact ⟨by rw [decodeTableWord, hnone], by rw [step_of_sched rfl, hitem, runItem]⟩

end Sys2Proof.Machine
end

section
/-! PROOFS of 30 R74 and 41 R131 to R138: a table entry run alone. The idea: the duties that a walk writes one after the
other are, colour by colour, those of `Claims.entryDuty`, and the phase step passes the entry. -/

namespace Sys2Proof.Machine

open Claims

/-- The record with the duties that entry `e` gives it in the walk of its transition (41 R133 to R135). -/
def Channel.withEntry (r : Channel) (e : Entry) : Channel :=
  { r with redDuty := entryDuty r e .red, yellowDuty := entryDuty r e .yellow, greenDuty := entryDuty r e .green }

theorem Channel.SameButDuties.eq_of_duty {r t u : Channel} (ht : r.SameButDuties t) (hu : r.SameButDuties u)
    (h : ∀ c, t.duty c = u.duty c) : t = u := by
  obtain ⟨x, y, z, rfl⟩ := ht
  obtain ⟨a, b, c, rfl⟩ := hu
  obtain rfl : x = a := h .red
  obtain rfl : y = b := h .yellow
  obtain rfl : z = c := h .green
  rfl

theorem Channel.withEntry_sameButDuties (r : Channel) (e : Entry) : r.SameButDuties (r.withEntry e) :=
  ⟨_, _, _, rfl⟩

theorem Channel.withEntry_duty (r : Channel) (e : Entry) (c : Color) : (r.withEntry e).duty c = entryDuty r e c := by
  cases c <;> rfl

theorem Channel.route_gy_cases {r : Channel} (h : r.route = .gy) :
    r.startAspect = .green ∧ r.endAspect = .yellow ∨ r.startAspect = .yellow ∧ r.endAspect = .green := by
  unfold Channel.route Machine.route at h
  split at h
  · next g => exact g.2
  · split at h <;> cases h

theorem Channel.throughRed_eq_withEntry {r : Channel} (e : Entry) (h : r.route = .gy) :
    r.throughRed e = r.withEntry e := by
  refine (throughRed_sameButDuties e r).eq_of_duty (r.withEntry_sameButDuties e) fun c => ?_
  rw [throughRed_duty, withEntry_duty, entryDuty, if_pos h]
  rcases route_gy_cases h with ⟨hstart, hend⟩ | ⟨hstart, hend⟩ <;> rw [hstart, hend] <;> cases c <;> rfl

theorem Channel.crossDuties_eq_withEntry {r : Channel} (e : Entry) (h : r.route ≠ .gy) :
    r.crossDuties e = r.withEntry e := by
  refine (crossDuties_sameButDuties e r).eq_of_duty (r.withEntry_sameButDuties e) fun c => ?_
  rw [crossDuties_duty, withEntry_duty, entryDuty, if_neg h]
  rfl

theorem Channel.stepPhase_eq_passed {r : Channel} {len : Nat} (hp : r.phase.toNat < len) (hlen : len ≤ 32) :
    r.stepPhase len = passed len r := by
  rw [stepPhase, passed, phase_succ hp hlen]
  by_cases h : r.phase.toNat + 1 < len
  · rw [if_neg (by omega), if_pos h]
  · rw [if_pos (by omega), if_neg h]
    rfl

theorem Channel.takeEntry_eq {r : Channel} {len : Nat} (e : Entry) (hp : r.phase.toNat < len) (hlen : len ≤ 32) :
    r.takeEntry r.route len e =
      if r.route = .fade ∧ r.endAspect = .off ∧ e.down = 0 then ended r else passed len (r.withEntry e) := by
  have hpassed : (r.withEntry e).stepPhase len = passed len (r.withEntry e) := stepPhase_eq_passed hp hlen
  cases hroute : r.route with
  | gy => rw [takeEntry, throughRed_eq_withEntry e hroute, hpassed, if_neg nofun]
  | red => rw [takeEntry, crossDuties_eq_withEntry e (hroute ▸ nofun), hpassed, if_neg nofun]
  | fade =>
    rw [takeEntry, crossDuties_eq_withEntry e (hroute ▸ nofun), hpassed]
    simp only [true_and]
    rfl

theorem Channel.runEntry_of_transition (cfg : Config) (e : Entry) {r : Channel}
    (h : r.startAspect ≠ r.endAspect) :
    r.runEntry cfg e =
      if tableLen (activeTable cfg r) ≤ r.phase.toNat then ended r
      else if r.route = .fade ∧ r.startAspect = .off ∧ e.up = 0 then passed (tableLen (activeTable cfg r)) r
      else if r.route = .fade ∧ r.endAspect = .off ∧ e.down = 0 then ended r
      else passed (tableLen (activeTable cfg r)) (r.withEntry e) := by
  have hlen := (tableLen_bounds (activeTable cfg r)).2
  rw [runEntry, if_neg h]
  change (if tableLen (activeTable cfg r) ≤ _ then _ else if _ then _ else _) = _
  by_cases hp : tableLen (activeTable cfg r) ≤ r.phase.toNat
  · rw [if_pos hp, if_pos hp]
    rfl
  · rw [if_neg hp, if_neg hp]
    rw [Nat.not_le] at hp
    rw [← takeEntry_eq e hp hlen, ← stepPhase_eq_passed hp hlen]
    rfl

/-- Settles O38: TABLE_ENTRY replaces the record of `cmdCh` by `Channel.runEntry` of it. -/
theorem tableEntryDrivesOneWalkStep : Obligations.TableEntryDrivesOneWalkStep := by
  intro s e hne r len
  exact ⟨_, rfl, s.setChan_onlyChan _ _,
    (State.chan_setChan_same s _ _).trans (Channel.runEntry_of_transition s.cfg e hne)⟩

end Sys2Proof.Machine
end

section
/-! PROOFS of 40_debounce.md: DEB_INIT, DEB_SAMPLE and DEB_STATE. The idea: with the second count bit 0, the per-lane
rule of R102 is a bit formula in the sample, the debounced bit and the first count bit; the bitwise form is that formula
in all lanes at once, and the other statements about DEB_SAMPLE read it back at one lane. -/

namespace Sys2Proof.Machine

/-! ### The rule (40 R102) -/

/-- The rule of a lane as a bit formula, for the counts that a run reaches. -/
theorem laneSample_countB_false (raw state a : Bool) :
    laneSample raw state a false =
      ⟨state ^^ ((raw ^^ state) && a), (raw ^^ state) && !a, false, (raw ^^ state) && a⟩ := by
  cases raw <;> cases state <;> cases a <;> rfl

theorem State.lane_of_clockB_eq_zero {s : State} (raw : Byte) (h : s.clockB = 0) (i : Fin 8) :
    s.lane raw i =
      ⟨s.debState.getLsbD i ^^ ((raw.getLsbD i ^^ s.debState.getLsbD i) && s.clockA.getLsbD i),
        (raw.getLsbD i ^^ s.debState.getLsbD i) && !s.clockA.getLsbD i, false,
        (raw.getLsbD i ^^ s.debState.getLsbD i) && s.clockA.getLsbD i⟩ := by
  have hB : s.clockB.getLsbD i = false := by rw [h]; exact BitVec.getLsbD_zero
  rw [State.lane, hB, laneSample_countB_false]

/-- The bytes that DEB_SAMPLE returns and writes are the formula in all lanes at once. -/
theorem State.debounce_bitwise {s : State} (raw : Byte) (h : s.clockB = 0) :
    s.debChanged raw = (raw ^^^ s.debState) &&& s.clockA ∧
      (s.debounce raw).debState = s.debState ^^^ ((raw ^^^ s.debState) &&& s.clockA) ∧
      (s.debounce raw).clockA = (raw ^^^ s.debState) &&& ~~~ s.clockA := by
  refine ⟨?_, ?_, ?_⟩
  all_goals
    apply BitVec.eq_of_getLsbD_eq
    intro i hi
    simp [State.debChanged, State.debounce, State.lane_of_clockB_eq_zero raw h, hi]

/-- Settles O46: the three bytes by their formula, and the second count bits stay 0. -/
theorem debSampleHasTheBitwiseForm : Obligations.DebSampleHasTheBitwiseForm := by
  intro raw s h
  obtain ⟨hchanged, hstate, hclockA⟩ := State.debounce_bitwise raw h
  exact ⟨_, rfl, hchanged, hstate, hclockA, State.debounce_clockB raw h⟩

/-! ### Lane by lane (40 R104, R105) -/

/-- A state that differs in the debouncer's bytes and the returned value alone. -/
theorem State.onlyDebouncer_with (s : State) (debState clockA clockB result : Byte) :
    OnlyDebouncer s { s with debState, clockA, clockB, result } :=
  ⟨fun _ => rfl, ⟨rfl, rfl, rfl, rfl, rfl, rfl⟩, fun _ => rfl, ⟨rfl, rfl⟩, fun _ => rfl, ⟨rfl, rfl, rfl, rfl, rfl⟩⟩

/-- Settles O45: lane `i` of the bitwise form where it agrees, and where it differs with its count 1 or 0. -/
theorem debSampleActsLaneByLane : Obligations.DebSampleActsLaneByLane := by
  intro raw s h
  obtain ⟨hchanged, hstate, hclockA⟩ := State.debounce_bitwise raw h
  refine ⟨_, rfl, s.onlyDebouncer_with _ _ _ _, State.debounce_clockB raw h, fun i => ?_⟩
  simp only [hchanged, hstate, hclockA, BitVec.getLsbD_xor, BitVec.getLsbD_and, BitVec.getLsbD_not, i.isLt]
  refine ⟨fun hagree => ?_, fun hdiffer hcount => ?_, fun hdiffer hcount => ?_⟩
  · simp [-BitVec.getLsbD_eq_getElem, hagree]
  · simp [-BitVec.getLsbD_eq_getElem, Bool.eq_not.2 hdiffer, hcount]
  · simp [-BitVec.getLsbD_eq_getElem, Bool.eq_not.2 hdiffer, hcount]

/-- Settles O47: the lane rule twice; the first call counts, and the second clears the count or flips the lane. -/
theorem glitchIsAbsorbedAndHeldChangeFlips : Obligations.GlitchIsAbsorbedAndHeldChangeFlips := by
  intro s first second i hA hB hfirst
  obtain ⟨t, ht, -, htB, htLane⟩ := debSampleActsLaneByLane first s hB
  obtain ⟨u, hu, -, -, huLane⟩ := debSampleActsLaneByLane second t htB
  have hcount : s.clockA.getLsbD i = false := by rw [hA]; exact BitVec.getLsbD_zero
  obtain ⟨-, -, htCounts⟩ := htLane i
  obtain ⟨huAgrees, huFlips, -⟩ := huLane i
  obtain ⟨htState, htA, htResult⟩ := htCounts hfirst hcount
  rw [htState] at huAgrees huFlips
  exact ⟨t, u, ht, hu, htState, htResult, huAgrees, fun hsecond => huFlips hsecond htA⟩

/-! ### DEB_INIT and DEB_STATE (40 R101, R103) -/

/-- Settles O44: the word is DEB_INIT's encoding, and the operation writes the debouncer's bytes alone. -/
theorem debInitSetsTheFilter : Obligations.DebInitSetsTheFilter :=
  fun v s => ⟨decodeOfEncodeGivesInstruction (.debInit v) rfl, _, rfl, rfl, rfl, rfl,
    s.onlyDebouncer_with v 0 0 s.result, rfl⟩

/-- Settles O48: the word is DEB_STATE's encoding, and the operation writes the returned value alone. -/
theorem debStateReturnsTheStableByte : Obligations.DebStateReturnsTheStableByte :=
  fun s => ⟨decodeOfEncodeGivesInstruction .debState rfl, _, rfl, rfl, ⟨rfl, rfl, rfl⟩,
    s.onlyDebouncer_with s.debState s.clockA s.clockB s.debState⟩

end Sys2Proof.Machine
end

section
/-! PROOFS of 41 R122 and R124: SET_TARGET and SET_OPTIONS. -/

namespace Sys2Proof.Machine

open Claims

theorem decodeAspect_eq_aspectOfCode (b : Byte) : decodeAspect b = aspectOfCode b.toNat := by
  rcases Nat.lt_or_ge b.toNat 8 with hlt | hge
  · unfold decodeAspect
    interval_cases b.toNat <;> rfl
  · obtain ⟨n, hn⟩ := Nat.exists_eq_add_of_le' hge
    rw [aspectOfCode_of_ge hge, decodeAspect, hn]
    rfl

/-- Settles O21: the word is SET_TARGET's encoding, and its byte is read as the aspect of its code. -/
theorem setTargetWritesNextAspect : Obligations.SetTargetWritesNextAspect := by
  intro k b s
  obtain ⟨hchan, honly⟩ := s.setTarget_onlyChan k (decodeAspect b)
  exact ⟨decodeOfEncodeGivesInstruction (.setTarget k b) rfl, _, rfl,
    decodeAspect_eq_aspectOfCode b ▸ hchan, honly⟩

/-- Settles O22: the two options of a byte are its two fields. -/
theorem setOptionsDecodesTheByte : Obligations.SetOptionsDecodesTheByte := by
  intro k b s
  obtain ⟨hchan, honly⟩ := s.setOptions_onlyChan k b
  refine ⟨_, rfl, hchan.trans ?_, honly⟩
  rw [Channel.setOptions, optionSearchlight_eq, not_optionAnode_eq]

end Sys2Proof.Machine
end

section
/-! PROOFS of 41 R125 to R143: the record after one ADVANCE. The idea: in a transition an ADVANCE takes the entry at
`Channel.entryPhase`, and its record is `Channel.afterEntry`; from steady state it is that of the transition it begins,
or the steady duties. -/

namespace Sys2Proof.Machine

open Claims

/-! ### The skip loop (41 R136) -/

/-- The loop stops at a phase past the table's end or at an entry with an up-phase. -/
theorem skipZeroUp_stops {t : Table} {n : Nat} {p : Byte} (hn : tableLen t ≤ p.toNat + n) {x : Entry}
    (hx : tableGet t (skipZeroUp t n p).toNat = some x) : x.up ≠ 0 := by
  induction n generalizing p with
  | zero => exact absurd (tableGet_lt hx) (by rw [skipZeroUp]; omega)
  | succ n ih =>
    unfold skipZeroUp at hx
    split at hx
    · next e he =>
      split at hx
      · have hsucc := phase_succ (tableGet_lt he) (tableLen_bounds t).2
        exact ih (by omega) hx
      · next hup => exact Option.some.inj (he.symm.trans hx) ▸ hup
    · next hnone => exact absurd (hnone.symm.trans hx) nofun

/-- The loop passes over entries without an up-phase only. -/
theorem skipZeroUp_passes {t : Table} {n : Nat} {p : Byte} {m : Nat} (hp : p.toNat ≤ m)
    (hm : m < (skipZeroUp t n p).toNat) {x : Entry} (hx : tableGet t m = some x) : x.up = 0 := by
  induction n generalizing p with
  | zero => exact absurd hm (by rw [skipZeroUp]; omega)
  | succ n ih =>
    unfold skipZeroUp at hm
    split at hm
    · next e he =>
      split at hm
      · next hup =>
        have hsucc := phase_succ (tableGet_lt he) (tableLen_bounds t).2
        rcases Nat.eq_or_lt_of_le hp with rfl | hlt
        · exact Option.some.inj (he.symm.trans hx) ▸ hup
        · exact ih (by omega) hm
      · omega
    · omega

/-- The phase at which the walk of a transition takes its entry: departing from Off, past the skip loop (41 R136). -/
def Channel.entryPhase (cfg : Config) (r : Channel) : Byte :=
  if r.startAspect = .off then skipZeroUp (fadeTable cfg) 32 r.phase else r.phase

theorem Channel.entryPhase_of_ne_off {cfg : Config} {r : Channel} (h : r.startAspect ≠ .off) :
    r.entryPhase cfg = r.phase := if_neg h

theorem Channel.phase_le_entryPhase (cfg : Config) (r : Channel) : r.phase.toNat ≤ (r.entryPhase cfg).toNat := by
  unfold entryPhase
  split
  · exact skipZeroUp_ge _ _ _
  · exact Nat.le_refl _

theorem Channel.skipLeading_eq (cfg : Config) (r : Channel) :
    r.skipLeading (fadeTable cfg) = { r with phase := r.entryPhase cfg } := by
  unfold skipLeading entryPhase
  split <;> rfl

theorem Channel.skipsTo_entryPhase (cfg : Config) (r : Channel) : SkipsTo cfg r (r.entryPhase cfg) := by
  unfold SkipsTo
  split
  · next hoff =>
    rw [entryPhase, if_pos hoff]
    refine ⟨skipZeroUp_ge _ _ _, ?_, fun m x hp hm => skipZeroUp_passes hp hm, fun x => skipZeroUp_stops (by simp)⟩
    rcases Nat.lt_or_ge 32 r.phase.toNat with hlt | hle
    · have hnone := (tableGet_none_iff (fadeTable cfg) r.phase.toNat).2 (by rw [tableLen_fade]; omega)
      exact .inr (by rw [skipZeroUp, hnone])
    · exact .inl (skipZeroUp_bounds _ _ _ hle).2
  · next hoff => exact entryPhase_of_ne_off hoff

theorem Channel.entryPhase_le (cfg : Config) (r : Channel) :
    (r.entryPhase cfg).toNat ≤ 32 ∨ r.entryPhase cfg = r.phase := by
  have hskips := r.skipsTo_entryPhase cfg
  unfold SkipsTo at hskips
  split at hskips
  · obtain ⟨-, hle, -, -⟩ := hskips
    exact hle
  · exact .inr hskips

/-- Of two phases that the rule of 41 R136 leads to neither is the higher. -/
theorem toNat_le_of_skipsTo {cfg : Config} {r : Channel} {p q : Byte} (hp : SkipsTo cfg r p) (hq : SkipsTo cfg r q) :
    q.toNat ≤ p.toNat := by
  unfold SkipsTo at hp hq
  by_cases hoff : r.startAspect = .off
  · rw [if_pos hoff] at hp hq
    obtain ⟨hpge, -, -, hpstop⟩ := hp
    obtain ⟨-, hqle, hqpass, -⟩ := hq
    by_contra hlt
    rw [Nat.not_le] at hlt
    have hin : p.toNat < tableLen (fadeTable cfg) := by
      rw [tableLen_fade]
      rcases hqle with hqle | rfl <;> omega
    obtain ⟨x, hx⟩ := Option.isSome_iff_exists.1 ((tableGet_isSome_iff _ _).2 hin)
    exact hpstop x hx (hqpass _ x hpge hlt hx)
  · rw [if_neg hoff] at hp hq
    rw [hp, hq]

theorem Channel.entryPhase_of_skipsTo {cfg : Config} {r : Channel} {q : Byte} (h : SkipsTo cfg r q) :
    r.entryPhase cfg = q :=
  BitVec.eq_of_toNat_eq (Nat.le_antisymm (toNat_le_of_skipsTo h (r.skipsTo_entryPhase cfg))
    (toNat_le_of_skipsTo (r.skipsTo_entryPhase cfg) h))

/-! ### One ADVANCE in a transition (41 R130 to R141) -/

theorem Channel.route_of_start_off {r : Channel} (h : r.startAspect = .off) : r.route = .fade := by
  simp [Channel.route, Machine.route, h]

theorem Channel.route_of_end_off {r : Channel} (h : r.endAspect = .off) : r.route = .fade := by
  simp [Channel.route, Machine.route, h]

theorem Channel.start_ne_off_of_route {r : Channel} (h : r.route ≠ .fade) : r.startAspect ≠ .off :=
  fun hoff => h (route_of_start_off hoff)

theorem Channel.arrived_eq_steadyOn (r : Channel) : r.arrived = steadyOn r r.endAspect := if_pos rfl

theorem Channel.walk_of_transition {cfg : Config} {r : Channel} (h : r.startAspect ≠ r.endAspect) :
    r.walk cfg = Channel.walkTable r.route (activeTable cfg r) { r with phase := r.entryPhase cfg } := by
  rw [walk, if_neg h, activeTable]
  cases hroute : r.route with
  | gy => rw [entryPhase_of_ne_off (start_ne_off_of_route (hroute ▸ nofun))]; rfl
  | red => rw [entryPhase_of_ne_off (start_ne_off_of_route (hroute ▸ nofun))]; rfl
  | fade => exact congrArg (walkTable .fade (fadeTable cfg)) (skipLeading_eq cfg r)

/-- The record after one ADVANCE in a transition that takes the entry of `t` at its phase: past the table's end (41
R138), where a fade to Off meets a zero down-phase (R137), and on the table's last entry, steady on the end aspect; else
the duties of the entry, and the phase after it. -/
def Channel.afterEntry (t : Table) (r : Channel) : Channel :=
  match tableGet t r.phase.toNat with
  | none => steadyOn r r.endAspect
  | some e =>
    if r.route = .fade ∧ r.endAspect = .off ∧ e.down = 0 then steadyOn r r.endAspect
    else if r.phase.toNat + 1 < tableLen t then { r.withEntry e with phase := r.phase + 1 }
    else steadyOn r r.endAspect

theorem Channel.settle_passed {len : Nat} {r : Channel} (h : r.startAspect ≠ r.endAspect) :
    (passed len r).settle =
      if r.phase.toNat + 1 < len then { r with phase := r.phase + 1 } else steadyOn r r.endAspect := by
  unfold passed
  split
  · exact if_neg h
  · exact if_pos rfl

theorem Channel.settle_walkTable (t : Table) {r : Channel} (h : r.startAspect ≠ r.endAspect) :
    (r.walkTable r.route t).settle = r.afterEntry t := by
  unfold walkTable afterEntry
  cases he : tableGet t r.phase.toNat with
  | none => exact arrived_eq_steadyOn r
  | some e =>
    simp only [takeEntry_eq e (tableGet_lt he) (tableLen_bounds t).2, apply_ite Channel.settle]
    exact if_congr Iff.rfl (arrived_eq_steadyOn r) (settle_passed (r := r.withEntry e) h)

theorem Channel.advance_eq_afterEntry {cfg : Config} (f : Bool) {r : Channel} (h : r.startAspect ≠ r.endAspect) :
    r.advance cfg f = Channel.afterEntry (activeTable cfg r) { r with phase := r.entryPhase cfg } := by
  rw [advance_of_transition h, walk_of_transition h]
  exact settle_walkTable (r := { r with phase := r.entryPhase cfg }) _ h

/-- An ADVANCE that finds no entry, or one that ends a fade to Off, ends the transition (41 R137, R138). -/
theorem Channel.advance_of_early_end {cfg : Config} (f : Bool) {r : Channel} (h : r.startAspect ≠ r.endAspect)
    (hend : ∀ e, tableGet (activeTable cfg r) (r.entryPhase cfg).toNat = some e →
      r.route = .fade ∧ r.endAspect = .off ∧ e.down = 0) :
    r.advance cfg f = steadyOn r r.endAspect := by
  rw [advance_eq_afterEntry f h, afterEntry]
  split
  · rfl
  · next e he => exact if_pos (hend e he)

/-- An ADVANCE that takes an entry gives its duties and goes to the phase after it; the last entry ends the transition
(41 R131). -/
theorem Channel.advance_of_entry {cfg : Config} (f : Bool) {r : Channel} {e : Entry}
    (h : r.startAspect ≠ r.endAspect) (he : tableGet (activeTable cfg r) (r.entryPhase cfg).toNat = some e)
    (hgo : ¬ (r.route = .fade ∧ r.endAspect = .off ∧ e.down = 0)) :
    r.advance cfg f =
      if (r.entryPhase cfg).toNat + 1 < tableLen (activeTable cfg r) then
        { r.withEntry e with phase := r.entryPhase cfg + 1 }
      else steadyOn r r.endAspect := by
  rw [advance_eq_afterEntry f h, afterEntry, he]
  exact if_neg hgo

/-- After an ADVANCE in a transition the duties are those of an entry, or the steady ones. -/
theorem Channel.duty_advance_of_transition {cfg : Config} (f : Bool) {r : Channel} (h : r.startAspect ≠ r.endAspect) :
    (∃ e, ∀ c, (r.advance cfg f).duty c = entryDuty r e c) ∨
      ∀ c, (r.advance cfg f).duty c = steadyDuty r.endAspect c := by
  have hsteady : ∀ c, (steadyOn r r.endAspect).duty c = steadyDuty r.endAspect c := fun c => by cases c <;> rfl
  rw [advance_eq_afterEntry f h, afterEntry]
  split
  · exact .inr hsteady
  · next e he =>
    split_ifs
    · exact .inr hsteady
    · exact .inl ⟨e, fun c => by cases c <;> rfl⟩
    · exact .inr hsteady

/-- A transition keeps its end aspect, whether or not the ADVANCE ends it. -/
theorem Channel.advance_endAspect_of_transition {cfg : Config} (f : Bool) {r : Channel}
    (h : r.startAspect ≠ r.endAspect) : (r.advance cfg f).endAspect = r.endAspect := by
  rcases advance_cases (cfg := cfg) f h with ⟨x, y, z, p, e, -, -⟩ | e <;> rw [e]
  rw [arrived_eq_steadyOn]
  rfl

theorem Channel.afterEntry_setTarget (t : Table) (a : Aspect) (r : Channel) :
    (r.setTarget a).afterEntry t = (r.afterEntry t).setTarget a := by
  have hphase : (r.setTarget a).phase = r.phase := rfl
  unfold afterEntry
  rw [hphase]
  cases tableGet t r.phase.toNat with
  | none => rfl
  | some e =>
    simp only [apply_ite (Channel.setTarget · a)]
    rfl

/-- The record of an ADVANCE in a transition depends on neither the requested aspect nor the flasher bit, and the
requested aspect goes through it unchanged (41 R146). -/
theorem Channel.advance_setTarget_of_transition {cfg : Config} (f g : Bool) (a : Aspect) {r : Channel}
    (h : r.startAspect ≠ r.endAspect) : (r.setTarget a).advance cfg g = (r.advance cfg f).setTarget a := by
  rw [advance_eq_afterEntry g (r := r.setTarget a) h, advance_eq_afterEntry f h]
  exact afterEntry_setTarget (activeTable cfg r) a { r with phase := r.entryPhase cfg }

/-! ### One ADVANCE from steady state (41 R128, R129, R141, R143) -/

theorem effective_eq_targetOf (a : Aspect) (f : Bool) : effective a f = targetOf a f := by
  cases a <;> cases f <;> rfl

theorem Channel.begunTo_in_transition {r : Channel} {t : Aspect} (h : r.startAspect = r.endAspect)
    (ht : t ≠ r.endAspect) : (begunTo r t).startAspect ≠ (begunTo r t).endAspect :=
  fun he => ht (he.symm.trans h)

/-- The endpoint is the effective target after every ADVANCE from steady state. -/
theorem Channel.advance_endAspect_of_steady {cfg : Config} (f : Bool) {r : Channel}
    (h : r.startAspect = r.endAspect) : (r.advance cfg f).endAspect = effective r.nextAspect f := by
  by_cases ht : effective r.nextAspect f = r.endAspect
  · obtain ⟨-, -, hend⟩ := r.settle_sameProgress
    rw [advance_of_steady f h ht, hend, ht]
  · rw [advance_of_begin f h ht]
    exact advance_endAspect_of_transition f (begunTo_in_transition h ht)

theorem Channel.settle_eq_steadyOn {r : Channel} (h : r.startAspect = r.endAspect) (hp : r.phase = 0) :
    r.settle = steadyOn r r.endAspect := by
  rw [settle, if_pos h, steadyOn, ← h, ← hp]

theorem Channel.duty_settle {r : Channel} (h : r.startAspect = r.endAspect) (c : Color) :
    r.settle.duty c = steadyDuty r.endAspect c := by
  rw [settle, if_pos h]
  cases c <;> rfl

/-- A record that holds its steady duties is not changed by settling it. -/
theorem Channel.settle_of_steady_duties {r : Channel} (h : ∀ c, r.duty c = steadyDuty r.endAspect c) :
    r.settle = r := by
  unfold settle
  split
  · rw [← h .red, ← h .yellow, ← h .green]
    rfl
  · rfl

end Sys2Proof.Machine
end

section
/-! PROOFS of 41 R125 to R149: the statements about one ADVANCE. The idea: each is the law of the record after an
ADVANCE (`Channel.advance_of_entry`, `Channel.advance_of_early_end`, `Channel.advance_of_steady`) at the endpoints that
the statement names, which select the walk. -/

namespace Sys2Proof.Machine

open Claims

@[simp] theorem State.chan_advance_same (s : State) (k : Ch) (f : Bool) :
    (s.advance k f).chan k = (s.chan k).advance s.cfg f := State.chan_setChan_same s k _

/-- ADVANCE of a channel makes the record that `Channel.advance` gives. -/
theorem advancesTo_of_eq {s : State} {k : Ch} {f : Bool} {r : Channel} (h : (s.chan k).advance s.cfg f = r) :
    AdvancesTo s k f r :=
  h ▸ ⟨_, exec_advance s k f, s.advance_onlyChan k f⟩

/-- Settles O23: beginning the transition is the only use that the ADVANCE makes of the target. -/
theorem advanceMakesForTheEffectiveTarget : Obligations.AdvanceMakesForTheEffectiveTarget := by
  intro s k f h target
  have htarget : effective (s.chan k).nextAspect f = target := effective_eq_targetOf _ _
  refine ⟨_, exec_advance s k f, s.setChan_onlyChan k _, ?_, fun hne => ?_⟩
  · rw [State.chan_advance_same, Channel.advance_endAspect_of_steady f h, htarget]
  · rw [exec_advance, State.advance, State.chan_setChan_same, State.setChan_setChan, State.setChan_cfg, State.advance,
      Channel.advance_of_begin f h (htarget ▸ hne), htarget]
    rfl

/-- Settles O24: the last step of an ADVANCE settles the record, and its writes come last. -/
theorem steadyStateForcesTheDuties : Obligations.SteadyStateForcesTheDuties := by
  intro s k f
  let walked := ((s.chan k).begin (effective (s.chan k).nextAspect f)).walk s.cfg
  have hchan : (s.advance k f).chan k = walked.settle := s.chan_advance_same k f
  obtain ⟨-, hstart, hend⟩ := walked.settle_sameProgress
  refine ⟨_, exec_advance s k f, fun hsteady => ?_⟩
  rw [hchan, hstart, hend] at hsteady
  have hred : walked.settle.redDuty = steadyDuty walked.endAspect .red := Channel.duty_settle hsteady .red
  have hyellow : walked.settle.yellowDuty = steadyDuty walked.endAspect .yellow := Channel.duty_settle hsteady .yellow
  have hgreen : walked.settle.greenDuty = steadyDuty walked.endAspect .green := Channel.duty_settle hsteady .green
  rw [hchan, hend, hred, hyellow, hgreen]
  refine ⟨?_, ?_, ?_, ?_, _, congrArg (_ ++ ·) (if_pos hsteady)⟩ <;> intro ha <;> rw [ha] <;> exact ⟨rfl, rfl, rfl⟩

/-- Between colourless endpoints an ADVANCE leaves every duty at 0. -/
theorem Channel.dark_advance_of_transition {cfg : Config} (f : Bool) {r : Channel} (h : r.startAspect ≠ r.endAspect)
    (hs : colorOf r.startAspect = none) (he : colorOf r.endAspect = none) (c : Color) :
    (r.advance cfg f).duty c = 0 := by
  have hgy : r.route ≠ .gy := fun hgy => by
    obtain ⟨hcolor, -⟩ := route_gy_colored hgy
    rw [hs] at hcolor
    cases hcolor
  rcases duty_advance_of_transition (cfg := cfg) f h with ⟨e, hduty⟩ | hduty <;> rw [hduty]
  · rw [entryDuty, if_neg hgy, crossDuty, hs, he]
    rfl
  · rw [steadyDuty, he]
    rfl

/-- Between colourless endpoints, and to a colourless target from steady state. -/
theorem Channel.dark_advance {cfg : Config} (f : Bool) {r : Channel} (hs : colorOf r.startAspect = none)
    (he : colorOf r.endAspect = none)
    (hn : r.startAspect = r.endAspect → colorOf (effective r.nextAspect f) = none) (c : Color) :
    (r.advance cfg f).duty c = 0 := by
  by_cases h : r.startAspect = r.endAspect
  · by_cases ht : effective r.nextAspect f = r.endAspect
    · rw [advance_of_steady f h ht, duty_settle h, steadyDuty, he]
      rfl
    · rw [advance_of_begin f h ht]
      exact dark_advance_of_transition f (begunTo_in_transition h ht) hs (hn h) c
  · exact dark_advance_of_transition f h hs he c

/-- Settles O25: Off and Lunar have no colour. -/
theorem lunarIsDark : Obligations.LunarIsDark := by
  intro s k f hs he hn
  have colorless : ∀ a : Aspect, a = .off ∨ a = .lunar → colorOf a = none := by rintro _ (rfl | rfl) <;> rfl
  have hnext (h : (s.chan k).startAspect = (s.chan k).endAspect) :
      colorOf (effective (s.chan k).nextAspect f) = none := by
    rcases hn h with ha | ha <;> rw [ha] <;> rfl
  have hdark := Channel.dark_advance (cfg := s.cfg) f (colorless _ hs) (colorless _ he) hnext
  refine ⟨_, exec_advance s k f, ?_⟩
  rw [State.chan_advance_same]
  exact ⟨hdark .red, hdark .yellow, hdark .green⟩

/-- Settles O26: the ADVANCE settles the record, which does nothing to a settled one. -/
theorem advanceIsIdempotentAtSteadyState : Obligations.AdvanceIsIdempotentAtSteadyState := by
  intro s k f h hp ht
  have hadvance : (s.chan k).advance s.cfg f = (s.chan k).settle := Channel.advance_of_steady f h ht
  refine ⟨advancesTo_of_eq (hadvance.trans (Channel.settle_eq_steadyOn h hp)), fun _ hsettled => ?_⟩
  obtain ⟨-, -, hduties⟩ := hsettled
  exact advancesTo_of_eq (hadvance.trans (Channel.settle_of_steady_duties hduties))

/-- Settles O27: the requested aspect goes through the ADVANCE of a transition unchanged. -/
theorem transitionIgnoresTargetAndFlasher : Obligations.TransitionIgnoresTargetAndFlasher := by
  intro s k f g a h
  refine ⟨_, _, exec_advance s k f, exec_advance _ k g, ?_, ?_⟩
  · rw [State.chan_advance_same, Channel.advance_endAspect_of_transition f h]
  · rw [State.chan_advance_same, State.chan_advance_same, State.chan_setChan_same]
    exact Channel.advance_setTarget_of_transition f g a h

/-- Settles O28: past the table's end, or where the skip loop finds no up-phase, there is no entry to take. -/
theorem phasePastTheTableEndsTheTransition : Obligations.PhasePastTheTableEndsTheTransition := by
  intro s k f h hpast
  have hnone : tableGet (activeTable s.cfg (s.chan k)) ((s.chan k).entryPhase s.cfg).toNat = none := by
    have hle := (s.chan k).phase_le_entryPhase s.cfg
    rcases hpast with hpast | ⟨hoff, hflat⟩
    · exact (tableGet_none_iff _ _).2 (hpast.trans hle)
    · rw [activeTable, Channel.route_of_start_off hoff]
      refine Option.eq_none_iff_forall_ne_some.2 fun e he => ?_
      have hskips := (s.chan k).skipsTo_entryPhase s.cfg
      rw [SkipsTo, if_pos hoff] at hskips
      obtain ⟨-, -, -, hstop⟩ := hskips
      exact hstop e he (hflat _ e hle he)
  obtain ⟨t, ht, hchan, honly⟩ := advancesTo_of_eq
    (Channel.advance_of_early_end f h fun e he => absurd (hnone.symm.trans he) nofun)
  exact ⟨t, ht, by rw [hchan]; rfl, by rw [hchan]; rfl, by rw [hchan]; rfl, honly⟩

/-! ### The three walks (41 R132 to R137) -/

theorem green_yellow_ne {a b : Aspect} (h : a = .green ∧ b = .yellow ∨ a = .yellow ∧ b = .green) : a ≠ b := by
  rcases h with ⟨rfl, rfl⟩ | ⟨rfl, rfl⟩ <;> decide

theorem Channel.route_eq_gy {r : Channel} (hsl : r.optSearchlight = true)
    (h : r.startAspect = .green ∧ r.endAspect = .yellow ∨ r.startAspect = .yellow ∧ r.endAspect = .green) :
    r.route = .gy := if_pos ⟨hsl, h⟩

theorem Channel.route_eq_red {r : Channel} (hsl : r.optSearchlight = true) (hs : r.startAspect ≠ .off)
    (he : r.endAspect ≠ .off) (h : r.startAspect = .red ∨ r.endAspect = .red) : r.route = .red := by
  have hgy : r.route ≠ .gy := fun hgy => by
    rcases route_gy_cases hgy with ⟨hg, hy⟩ | ⟨hy, hg⟩ <;> rw [hg, hy] at h <;> simp at h
  unfold route Machine.route at hgy ⊢
  split
  · next g => exact absurd (if_pos g) hgy
  · exact if_pos ⟨hsl, hs, he, h⟩

theorem Channel.route_eq_fade {r : Channel}
    (h : r.optSearchlight = false ∨ r.startAspect = .off ∨ r.endAspect = .off ∨
      r.startAspect = .lunar ∧ r.endAspect ≠ .red ∨ r.endAspect = .lunar ∧ r.startAspect ≠ .red) :
    r.route = .fade := by
  rcases h with hsl | hoff | hoff | ⟨hlunar, hred⟩ | ⟨hlunar, hred⟩
  · simp [route, Machine.route, hsl]
  · exact route_of_start_off hoff
  · exact route_of_end_off hoff
  · simp [route, Machine.route, hlunar, hred]
  · simp [route, Machine.route, hlunar, hred]

theorem Channel.entryDuty_of_route_ne_gy {r : Channel} (h : r.route ≠ .gy) (e : Entry) (c : Color) :
    entryDuty r e c = crossDuty r e c := if_neg h

/-- The ADVANCE that takes entry `e` at phase `q` of the table `t` of its walk. -/
theorem advancesTo_of_entry {s : State} {k : Ch} (f : Bool) {e : Entry} {t : Table} {q : Byte}
    (h : (s.chan k).startAspect ≠ (s.chan k).endAspect) (htable : activeTable s.cfg (s.chan k) = t)
    (hphase : (s.chan k).entryPhase s.cfg = q) (he : tableGet t q.toNat = some e)
    (hgo : ¬ ((s.chan k).route = .fade ∧ (s.chan k).endAspect = .off ∧ e.down = 0)) :
    AdvancesTo s k f
      (if q.toNat + 1 < tableLen t then
        steppedTo (s.chan k) q (entryDuty (s.chan k) e .red) (entryDuty (s.chan k) e .yellow)
          (entryDuty (s.chan k) e .green)
      else steadyOn (s.chan k) (s.chan k).endAspect) := by
  subst htable hphase
  exact advancesTo_of_eq (Channel.advance_of_entry f h he hgo)

/-- Of the walks but the through-red one the duties are those of `crossDuty`. -/
theorem crossStep_of_entry {s : State} {k : Ch} (f : Bool) {e : Entry} {t : Table} {q : Byte}
    (h : (s.chan k).startAspect ≠ (s.chan k).endAspect) (htable : activeTable s.cfg (s.chan k) = t)
    (hphase : (s.chan k).entryPhase s.cfg = q) (he : tableGet t q.toNat = some e)
    (hgo : ¬ ((s.chan k).route = .fade ∧ (s.chan k).endAspect = .off ∧ e.down = 0))
    (hgy : (s.chan k).route ≠ .gy) : CrossStep s k f (tableLen t) q e := by
  have hstep := advancesTo_of_entry f h htable hphase he hgo
  simpa only [CrossStep, Channel.entryDuty_of_route_ne_gy hgy] using hstep

/-- The through-red step, in either direction. -/
theorem advancesTo_of_gy {s : State} {k : Ch} (f : Bool) {e : Entry} (hsl : (s.chan k).optSearchlight = true)
    (hends : (s.chan k).startAspect = .green ∧ (s.chan k).endAspect = .yellow ∨
      (s.chan k).startAspect = .yellow ∧ (s.chan k).endAspect = .green)
    (he : tableGet s.cfg.gy (s.chan k).phase.toNat = some e) :
    AdvancesTo s k f
      (if (s.chan k).phase.toNat + 1 < tableLen s.cfg.gy then
        steppedTo (s.chan k) (s.chan k).phase (entryDuty (s.chan k) e .red) (entryDuty (s.chan k) e .yellow)
          (entryDuty (s.chan k) e .green)
      else steadyOn (s.chan k) (s.chan k).endAspect) := by
  have hroute : (s.chan k).route = .gy := Channel.route_eq_gy hsl hends
  exact advancesTo_of_entry f (green_yellow_ne hends) (by rw [activeTable, hroute]; rfl)
    (Channel.entryPhase_of_ne_off (Channel.start_ne_off_of_route (hroute ▸ nofun))) he (hroute ▸ nofun)

/-- Settles O29: the walk's duties, read at the two colours of its endpoints. -/
theorem throughRedStep : Obligations.ThroughRedStep := by
  intro s k f e hsl he
  have step (hends : (s.chan k).startAspect = .green ∧ (s.chan k).endAspect = .yellow ∨
      (s.chan k).startAspect = .yellow ∧ (s.chan k).endAspect = .green) :=
    advancesTo_of_gy f hsl hends he
  refine ⟨fun hs hend => ?_, fun hs hend => ?_⟩
  · simpa [entryDuty, Channel.route_eq_gy hsl (.inl ⟨hs, hend⟩), hs, hend, colorOf] using step (.inl ⟨hs, hend⟩)
  · simpa [entryDuty, Channel.route_eq_gy hsl (.inr ⟨hs, hend⟩), hs, hend, colorOf] using step (.inr ⟨hs, hend⟩)

/-- Settles O30: Red at one end and no Off at the other select the involving-red table. -/
theorem involvingRedStep : Obligations.InvolvingRedStep := by
  intro s k f e hsl hne _ _ hs hend hred he
  have hroute : (s.chan k).route = .red := Channel.route_eq_red hsl hs hend hred
  exact crossStep_of_entry f hne (by rw [activeTable, hroute]; rfl) (Channel.entryPhase_of_ne_off hs) he
    (hroute ▸ nofun) (hroute ▸ nofun)

/-- Settles O31: the other routes select the fade table, whose skip loop leads from Off to the entry described. -/
theorem fadeStep : Obligations.FadeStep := by
  intro s k f q e hne _ _ hfade hq hdown he
  have hroute : (s.chan k).route = .fade := Channel.route_eq_fade hfade
  have hskips : SkipsTo s.cfg (s.chan k) q := by
    unfold SkipsTo
    split
    · next hoff =>
      rw [if_pos hoff] at hq
      obtain ⟨hge, hup, hpass⟩ := hq
      have hlt : q.toNat < 32 := tableGet_lt he
      exact ⟨hge, .inl hlt.le, hpass, fun x hx => Option.some.inj (he.symm.trans hx) ▸ hup⟩
    · next hoff => rwa [if_neg hoff] at hq
  exact crossStep_of_entry (t := fadeTable s.cfg) f hne (by rw [activeTable, hroute]; rfl)
    (Channel.entryPhase_of_skipsTo hskips) he (fun ⟨_, hend, hzero⟩ => hdown hend hzero) (hroute ▸ nofun)

/-- Settles O32: the entry at the phase is the one that ends the fade. -/
theorem fadeToOffEndsAtZeroDown : Obligations.FadeToOffEndsAtZeroDown := by
  intro s k f e hs hend he hdown
  have hroute : (s.chan k).route = .fade := Channel.route_of_end_off hend
  have hne : (s.chan k).startAspect ≠ (s.chan k).endAspect := hend ▸ hs
  have hearly := Channel.advance_of_early_end (cfg := s.cfg) f hne fun x hx => by
    rw [Channel.entryPhase_of_ne_off hs, activeTable, hroute] at hx
    exact ⟨hroute, hend, Option.some.inj (he.symm.trans hx) ▸ hdown⟩
  exact advancesTo_of_eq (hend ▸ hearly)

/-- Settles O35: the fade's duties and the steady ones give red nothing between Green and Yellow. -/
theorem threeLampGreenYellowNeverShowsRed : Obligations.ThreeLampGreenYellowNeverShowsRed := by
  intro s k f hsl hends
  have hroute : (s.chan k).route = .fade := Channel.route_eq_fade (.inl hsl)
  refine ⟨_, exec_advance s k f, ?_⟩
  rw [State.chan_advance_same]
  change ((s.chan k).advance s.cfg f).duty .red = 0
  rcases Channel.duty_advance_of_transition (cfg := s.cfg) f (green_yellow_ne hends) with ⟨e, hduty⟩ | hduty <;>
    rw [hduty]
  · rw [Channel.entryDuty_of_route_ne_gy (hroute ▸ nofun), crossDuty]
    rcases hends with ⟨hs, he⟩ | ⟨hs, he⟩ <;> rw [hs, he] <;> rfl
  · rcases hends with ⟨-, he⟩ | ⟨-, he⟩ <;> rw [he] <;> rfl

theorem Channel.entryPhase_of_up_ne_zero {cfg : Config} {r : Channel} {e : Entry}
    (he : tableGet (activeTable cfg r) r.phase.toNat = some e) (hup : r.startAspect = .off → e.up ≠ 0) :
    r.entryPhase cfg = r.phase := by
  by_cases hoff : r.startAspect = .off
  · rw [activeTable, route_of_start_off hoff] at he
    rw [entryPhase, if_pos hoff, skipZeroUp]
    change tableGet (fadeTable cfg) _ = _ at he
    rw [he]
    exact if_neg (hup hoff)
  · exact entryPhase_of_ne_off hoff

/-- An entry that the skip loop does not pass over is taken by its walk. -/
theorem Channel.runEntry_eq_takeEntry {cfg : Config} {r : Channel} {e : Entry} (h : r.startAspect ≠ r.endAspect)
    (hin : r.phase.toNat < tableLen (activeTable cfg r)) (hup : r.startAspect = .off → e.up ≠ 0) :
    r.runEntry cfg e = r.takeEntry r.route (tableLen (activeTable cfg r)) e := by
  have hstop : ¬ (r.route = .fade ∧ r.startAspect = .off ∧ e.up = 0) := fun ⟨_, hoff, hzero⟩ => hup hoff hzero
  unfold activeTable at hin ⊢
  rw [runEntry, if_neg h, if_neg (Nat.not_le.2 hin), if_neg hstop]

/-- The ADVANCE settles what the entry at the phase, run alone, leaves (D10). -/
theorem Channel.advance_eq_settle_runEntry {cfg : Config} {r : Channel} {e : Entry} (f : Bool)
    (h : r.startAspect ≠ r.endAspect) (he : tableGet (activeTable cfg r) r.phase.toNat = some e)
    (hup : r.startAspect = .off → e.up ≠ 0) : r.advance cfg f = (r.runEntry cfg e).settle := by
  have hphase : ({ r with phase := r.entryPhase cfg } : Channel) = r := by rw [entryPhase_of_up_ne_zero he hup]
  rw [advance_of_transition h, walk_of_transition h, hphase, walkTable, he,
    runEntry_eq_takeEntry h (tableGet_lt he) hup]

/-- Settling what a walk's entry leaves: the steady duties if it ended the transition, else nothing. -/
theorem Channel.settle_takeEntry {r : Channel} (w : Route) {len : Nat} (e : Entry) (h : r.startAspect ≠ r.endAspect)
    (hp : r.phase.toNat < len) (hlen : len ≤ 32) :
    (r.takeEntry w len e).settle =
      if (r.takeEntry w len e).startAspect = (r.takeEntry w len e).endAspect then steadyOn r r.endAspect
      else r.takeEntry w len e := by
  rcases takeEntry_cases w e hp hlen with ⟨x, y, z, p, htake, -, -⟩ | ⟨x, y, z, htake⟩ <;> rw [htake]
  · exact (if_neg h).trans (if_neg h).symm
  · rw [if_pos rfl, settle, if_pos rfl]
    rfl

/-- Settles O39: at steady state no entry runs, and in a transition the ADVANCE settles what the entry leaves. -/
theorem tableEntryAgreesWithAdvance : Obligations.TableEntryAgreesWithAdvance := by
  intro s e f
  refine ⟨fun h => ⟨_, rfl, fun j => ?_⟩, fun h he hup => ⟨_, _, rfl, exec_advance s _ f, ?_⟩⟩
  · rw [Channel.runEntry, if_pos h, State.setChan_self]
  · have hin := tableGet_lt he
    rw [State.chan_advance_same, State.chan_setChan_same, Channel.advance_eq_settle_runEntry f h he hup,
      Channel.runEntry_eq_takeEntry h hin hup]
    exact Channel.settle_takeEntry _ e h hin (tableLen_bounds _).2

end Sys2Proof.Machine
end

section
/-! PROOFS of 41 R140 and R143 to R145: runs of ADVANCEs of one channel. The idea: each ADVANCE in a transition raises
the phase inside the table or arrives, so the distance to the table's end bounds the run; and a channel steady on its
target stays. -/

namespace Sys2Proof.Machine

open Claims

/-- The record after ADVANCEs with the flasher bits `fs`. -/
def Channel.advances (cfg : Config) (fs : List Bool) (r : Channel) : Channel :=
  fs.foldl (fun r f => r.advance cfg f) r

theorem Channel.advances_append (cfg : Config) (fs gs : List Bool) (r : Channel) :
    r.advances cfg (fs ++ gs) = (r.advances cfg fs).advances cfg gs := List.foldl_append

/-- ADVANCEs of one channel make its record that of `Channel.advances`, and change nothing else. -/
theorem execAll_advance (k : Ch) (fs : List Bool) (s : State) :
    execAll (fs.map fun f => Instr.advance k f) s = .next (s.setChan k ((s.chan k).advances s.cfg fs)) := by
  induction fs generalizing s with
  | nil => rw [List.map_nil, execAll, Channel.advances, List.foldl_nil, State.setChan_self]
  | cons f fs ih =>
    rw [List.map_cons, execAll, exec_advance]
    change execAll _ (s.advance k f) = _
    rw [ih, State.advance, State.setChan_setChan, State.chan_setChan_same, State.setChan_cfg]
    rfl

/-- In a transition as many ADVANCEs as the table has entries from the phase on, and at least one, bring it to its
end (41 R144). -/
theorem Channel.exists_advances_eq_steadyOn {cfg : Config} (fs : List Bool) {r : Channel}
    (h : r.startAspect ≠ r.endAspect) (hpos : 1 ≤ fs.length)
    (hlen : tableLen (activeTable cfg r) ≤ r.phase.toNat + fs.length) :
    ∃ n, 1 ≤ n ∧ n ≤ fs.length ∧ r.advances cfg (fs.take n) = steadyOn r r.endAspect := by
  induction fs generalizing r with
  | nil => exact absurd hpos (by decide)
  | cons f fs ih =>
    rw [List.length_cons] at hlen
    rcases advance_cases (cfg := cfg) f h with ⟨x, y, z, p, hrise, hup, hin⟩ | harrived
    · obtain ⟨n, -, hn, hend⟩ := ih (r := { r with redDuty := x, yellowDuty := y, greenDuty := z, phase := p }) h
        (by omega) (by change tableLen (activeTable cfg r) ≤ p.toNat + _; omega)
      refine ⟨n + 1, Nat.le_add_left 1 n, Nat.succ_le_succ hn, ?_⟩
      rw [List.take_succ_cons, advances, List.foldl_cons, hrise]
      exact hend
    · exact ⟨1, le_rfl, hpos, harrived.trans r.arrived_eq_steadyOn⟩

/-- A channel steady on the effective target of every bit stays so (41 R143). -/
theorem Channel.advances_steadyOn {cfg : Config} {fs : List Bool} {r : Channel} {a : Aspect}
    (h : ∀ f ∈ fs, effective r.nextAspect f = a) : (steadyOn r a).advances cfg fs = steadyOn r a := by
  induction fs with
  | nil => rfl
  | cons f fs ih =>
    obtain ⟨hf, hfs⟩ := List.forall_mem_cons.1 h
    have hstay : (steadyOn r a).advance cfg f = steadyOn r a :=
      (advance_of_steady (r := steadyOn r a) f rfl hf).trans (settle_eq_steadyOn (r := steadyOn r a) rfl rfl)
    rw [advances, List.foldl_cons, hstay]
    exact ih hfs

/-- A transition is over within 32 ADVANCEs, and the channel stays where it ended if the effective target is that. -/
theorem Channel.advances_of_transition {cfg : Config} {fs : List Bool} {r : Channel}
    (h : r.startAspect ≠ r.endAspect) (hlen : fs.length = 32)
    (ht : ∀ f ∈ fs, effective r.nextAspect f = r.endAspect) :
    r.advances cfg fs = steadyOn r r.endAspect := by
  have htable := (tableLen_bounds (activeTable cfg r)).2
  obtain ⟨n, -, -, hend⟩ := exists_advances_eq_steadyOn (cfg := cfg) fs h (by omega) (by omega)
  rw [← List.take_append_drop n fs, advances_append, hend]
  exact advances_steadyOn fun f hf => ht f (List.mem_of_mem_drop hf)

/-- From steady state 32 ADVANCEs with one effective target settle the channel on it. -/
theorem Channel.advances_of_steady {cfg : Config} {fs : List Bool} {r : Channel} {a : Aspect}
    (h : r.startAspect = r.endAspect) (hp : r.phase = 0) (hlen : fs.length = 32)
    (ht : ∀ f ∈ fs, effective r.nextAspect f = a) : r.advances cfg fs = steadyOn r a := by
  obtain ⟨f, fs, rfl⟩ : ∃ g gs, fs = g :: gs := List.exists_cons_of_length_eq_add_one hlen
  obtain ⟨hf, hfs⟩ := List.forall_mem_cons.1 ht
  by_cases ha : a = r.endAspect
  · have hfirst : r.advance cfg f = steadyOn r a := by
      rw [advance_of_steady f h (hf.trans ha), settle_eq_steadyOn h hp, ha]
    rw [advances, List.foldl_cons, hfirst]
    exact advances_steadyOn hfs
  · have hfirst : r.advance cfg f = (begunTo r a).advance cfg f := by
      rw [advance_of_begin f h (hf.symm ▸ ha), hf]
      rfl
    rw [advances, List.foldl_cons, hfirst]
    exact advances_of_transition (fs := f :: fs) (begunTo_in_transition h ha) hlen ht

/-- Settles O33: the table has entries for at least one ADVANCE, and no more are left from the phase on. -/
theorem transitionEndsWithinItsTable : Obligations.TransitionEndsWithinItsTable := by
  intro s k fs h hlen
  have htable := (tableLen_bounds (activeTable s.cfg (s.chan k))).1
  obtain ⟨n, hpos, hn, hend⟩ := Channel.exists_advances_eq_steadyOn (cfg := s.cfg) fs h (by omega) (by omega)
  refine ⟨n, _, hpos, hn, execAll_advance k _ s, ?_⟩
  rw [State.chan_setChan_same, hend]
  exact ⟨rfl, rfl, rfl⟩

/-- Settles O34: no table has more than 32 entries, and the channel stays where it has settled. -/
theorem channelSettlesWithin32Advances : Obligations.ChannelSettlesWithin32Advances := by
  intro s k fs a h hp ht hlen
  have hsettled := Channel.advances_of_steady (cfg := s.cfg) h hp hlen fun f hf =>
    (effective_eq_targetOf _ f).trans (ht f hf)
  exact ⟨_, execAll_advance k fs s, (State.chan_setChan_same s k _).trans hsettled, s.setChan_onlyChan k _⟩

end Sys2Proof.Machine
end

section
/-! PROOFS of 41 R148: the list of the byte writes of an ADVANCE. The idea: part by part, the writes done in their order
make the record of that part; and in a transition the list is the rounds of the skip loop and then
`Channel.tableStepWrites`, written out in the order of R148. -/

namespace Sys2Proof.Machine

open Claims

/-! ### The writes, done in their order, make the ADVANCE -/

theorem Channel.writeAll_throughRedWrites (e : Entry) (r : Channel) :
    r.writeAll (r.throughRedWrites e) = r.throughRed e := by
  rw [throughRedWrites, writeAll_append, writeAll_append, writeAll_dutyWrite?, writeAll_dutyWrite?]
  rfl

theorem Channel.writeAll_crossWrites (e : Entry) (r : Channel) : r.writeAll (r.crossWrites e) = r.crossDuties e := by
  rw [crossWrites, writeAll_append, writeAll_append, writeAll_dutyWrite?, writeAll_dutyWrite?]
  rfl

theorem Channel.writeAll_stepWrites {r t : Channel} (len : Nat) (h : r.SameButDuties t) :
    t.writeAll (r.stepWrites len) = t.stepPhase len := by
  obtain ⟨x, y, z, rfl⟩ := h
  unfold stepWrites stepPhase
  split <;> rfl

theorem Channel.writeAll_takeWrites (w : Route) (len : Nat) (e : Entry) (r : Channel) :
    r.writeAll (r.takeWrites w len e) = r.takeEntry w len e := by
  have hcross : r.writeAll (r.crossWrites e ++ r.stepWrites len) = (r.crossDuties e).stepPhase len := by
    rw [writeAll_append, writeAll_crossWrites, writeAll_stepWrites len (crossDuties_sameButDuties e r)]
  cases w with
  | gy =>
    rw [takeWrites, writeAll_append, writeAll_throughRedWrites,
      writeAll_stepWrites len (throughRed_sameButDuties e r)]
    rfl
  | red => exact hcross
  | fade =>
    unfold takeWrites takeEntry
    rw [apply_ite r.writeAll, hcross]
    rfl

theorem Channel.writeAll_walkTableWrites (w : Route) (t : Table) (r : Channel) :
    r.writeAll (r.walkTableWrites w t) = r.walkTable w t := by
  unfold walkTableWrites walkTable
  cases tableGet t r.phase.toNat with
  | none => rfl
  | some e => exact writeAll_takeWrites w _ e r

theorem Channel.writeAll_skipLeadingWrites (t : Table) (r : Channel) :
    r.writeAll (r.skipLeadingWrites t) = r.skipLeading t := by
  unfold skipLeadingWrites skipLeading
  split
  · exact writeAll_skipWrites t _ r.phase r
  · rfl

theorem Channel.writeAll_walkWrites (cfg : Config) (r : Channel) : r.writeAll (r.walkWrites cfg) = r.walk cfg := by
  unfold walkWrites walk
  split
  · rfl
  · cases r.route with
    | gy => exact writeAll_walkTableWrites .gy _ r
    | red => exact writeAll_walkTableWrites .red _ r
    | fade =>
      simp only [writeAll_append, writeAll_skipLeadingWrites, writeAll_walkTableWrites]
      rfl

theorem Channel.writeAll_beginWrites (t : Aspect) (r : Channel) : r.writeAll (r.beginWrites t) = r.begin t := by
  unfold beginWrites begin
  split <;> rfl

theorem Channel.writeAll_settleWrites (r : Channel) : r.writeAll r.settleWrites = r.settle := by
  unfold settleWrites settle
  split <;> rfl

theorem Channel.writeAll_advanceWrites (cfg : Config) (f : Bool) (r : Channel) :
    r.writeAll (r.advanceWrites cfg f) = r.advance cfg f := by
  rw [advanceWrites, writeAll_append, writeAll_append, writeAll_beginWrites, writeAll_walkWrites,
    writeAll_settleWrites]
  rfl

/-! ### The writes of a transition, in the order of 41 R148 -/

theorem dutyWrite?_colorOf (a : Aspect) (v : BitVec 5) : dutyWrite? (colorOf a) (level v) = colorWrite a v := by
  cases a <;> rfl

/-- The duty writes of entry `e` (41 R148 (2)). -/
def Channel.entryWrites (w : Route) (e : Entry) (r : Channel) : List ChanWrite :=
  match w with
  | .gy => colorWrite r.startAspect e.down ++ colorWrite r.endAspect e.up ++ [.redDuty (level e.red)]
  | .red | .fade => zeroedWrites r e

/-- The byte writes of an ADVANCE in a transition that takes the entry of `t` at its phase, from the reading of that
entry on: the duties and the rise of the phase, or the end of the transition (41 R148 (2) to (4)). -/
def Channel.tableStepWrites (w : Route) (t : Table) (r : Channel) : List ChanWrite :=
  match tableGet t r.phase.toNat with
  | none => endWrites r.endAspect
  | some e =>
    if w = .fade ∧ r.endAspect = .off ∧ e.down = 0 then endWrites r.endAspect
    else r.entryWrites w e ++ passWrites (tableLen t) r.phase r.endAspect

theorem Channel.throughRedWrites_eq (e : Entry) (r : Channel) : r.throughRedWrites e = r.entryWrites .gy e := by
  rw [throughRedWrites, dutyWrite?_colorOf, dutyWrite?_colorOf]
  rfl

theorem Channel.crossWrites_eq (e : Entry) (r : Channel) : r.crossWrites e = zeroedWrites r e := by
  rw [crossWrites, dutyWrite?_colorOf, dutyWrite?_colorOf]
  rfl

theorem Channel.takeWrites_eq (w : Route) (len : Nat) (e : Entry) (r : Channel) :
    r.takeWrites w len e =
      if w = .fade ∧ r.endAspect = .off ∧ e.down = 0 then r.finishWrites
      else r.entryWrites w e ++ r.stepWrites len := by
  cases w with
  | gy => rw [takeWrites, throughRedWrites_eq, if_neg nofun]
  | red => rw [takeWrites, crossWrites_eq, if_neg nofun]; rfl
  | fade =>
    rw [takeWrites, crossWrites_eq]
    simp only [true_and]
    rfl

/-- The end of a transition and the settling after it. -/
theorem Channel.finishWrites_append_settleWrites (r : Channel) :
    r.finishWrites ++ r.finish.settleWrites = endWrites r.endAspect := by
  rw [settleWrites, if_pos (by rfl)]
  rfl

/-- The rise of the phase, and the settling after it. -/
theorem Channel.stepWrites_append_settleWrites {r t : Channel} {len : Nat} (ht : r.SameButDuties t)
    (h : r.startAspect ≠ r.endAspect) (hp : r.phase.toNat < len) (hlen : len ≤ 32) :
    r.stepWrites len ++ (t.stepPhase len).settleWrites = passWrites len r.phase r.endAspect := by
  obtain ⟨x, y, z, rfl⟩ := ht
  rw [stepWrites, stepPhase, passWrites, phase_succ hp hlen]
  by_cases hin : r.phase.toNat + 1 < len
  · rw [if_neg (by omega), if_neg (by omega), if_pos hin, settleWrites, if_neg (by exact h)]
  · rw [if_pos (by omega), if_pos (by omega), if_neg hin, settleWrites, if_pos (by rfl)]
    rfl

theorem Channel.walkTableWrites_append_settleWrites {w : Route} {t : Table} {r : Channel}
    (h : r.startAspect ≠ r.endAspect) :
    r.walkTableWrites w t ++ (r.walkTable w t).settleWrites = r.tableStepWrites w t := by
  unfold walkTableWrites walkTable tableStepWrites
  cases he : tableGet t r.phase.toNat with
  | none => exact r.finishWrites_append_settleWrites
  | some e =>
    have hstep {u : Channel} (hu : r.SameButDuties u) :=
      stepWrites_append_settleWrites hu h (tableGet_lt he) (tableLen_bounds t).2
    simp only [takeWrites_eq]
    by_cases hearly : w = .fade ∧ r.endAspect = .off ∧ e.down = 0
    · rw [if_pos hearly, if_pos hearly]
      obtain ⟨rfl, hoff⟩ := hearly
      rw [takeEntry, if_pos hoff]
      exact r.finishWrites_append_settleWrites
    · rw [if_neg hearly, if_neg hearly, List.append_assoc]
      cases w with
      | gy => rw [takeEntry, hstep (throughRed_sameButDuties e r)]
      | red => rw [takeEntry, hstep (crossDuties_sameButDuties e r)]
      | fade => rw [takeEntry, if_neg fun hoff => hearly ⟨rfl, hoff⟩, hstep (crossDuties_sameButDuties e r)]

theorem skipRounds_self (p : Byte) : skipRounds p p = [] := by
  rw [skipRounds, Nat.sub_self]
  rfl

theorem skipWrites_eq_skipRounds (t : Table) (n : Nat) (p : Byte) :
    skipWrites t n p = skipRounds p (skipZeroUp t n p) := by
  induction n generalizing p with
  | zero => exact (skipRounds_self p).symm
  | succ n ih =>
    unfold skipWrites skipZeroUp
    split
    · next e he =>
      split
      · have hsucc := phase_succ (tableGet_lt he) (tableLen_bounds t).2
        have hle := skipZeroUp_ge t n (p + 1)
        have hrounds : (skipZeroUp t n (p + 1)).toNat - p.toNat =
            (skipZeroUp t n (p + 1)).toNat - (p + 1).toNat + 1 := by omega
        rw [ih, skipRounds, skipRounds, hrounds, List.range_succ_eq_map, List.map_cons, List.map_map]
        refine congrArg _ (List.map_congr_left fun m _ => congrArg ChanWrite.phase ?_)
        change p + 1 + BitVec.ofNat 8 (m + 1) = p + BitVec.ofNat 8 (m + 1 + 1)
        rw [BitVec.add_assoc, Nat.add_comm (m + 1) 1, BitVec.ofNat_add 1]
        rfl
      · exact (skipRounds_self p).symm
    · exact (skipRounds_self p).symm

theorem Channel.skipLeadingWrites_eq (cfg : Config) (r : Channel) :
    r.skipLeadingWrites (fadeTable cfg) = skipRounds r.phase (r.entryPhase cfg) := by
  unfold skipLeadingWrites entryPhase
  split
  · exact skipWrites_eq_skipRounds _ _ _
  · exact (skipRounds_self _).symm

/-- The byte writes of an ADVANCE in a transition: the rounds of the skip loop, and the step on the entry after them. -/
theorem Channel.advanceWrites_of_transition {cfg : Config} (f : Bool) {r : Channel} (h : r.startAspect ≠ r.endAspect) :
    r.advanceWrites cfg f = skipRounds r.phase (r.entryPhase cfg) ++
      Channel.tableStepWrites r.route (activeTable cfg r) { r with phase := r.entryPhase cfg } := by
  have hbegin : r.beginWrites (effective r.nextAspect f) = [] := if_neg fun g => h g.1
  rw [advanceWrites, hbegin, begin_of_transition _ h, List.nil_append, walk_of_transition h,
    ← walkTableWrites_append_settleWrites (by exact h), ← List.append_assoc, walkWrites, if_neg h]
  refine congrArg (· ++ _) ?_
  unfold activeTable
  cases hroute : r.route with
  | gy =>
    rw [entryPhase_of_ne_off (start_ne_off_of_route (hroute ▸ nofun)), skipRounds_self]
    rfl
  | red =>
    rw [entryPhase_of_ne_off (start_ne_off_of_route (hroute ▸ nofun)), skipRounds_self]
    rfl
  | fade =>
    simp only [skipLeadingWrites_eq, skipLeading_eq]
    rfl

/-! ### The writes from steady state (41 R148 (1) and (4)) -/

theorem Channel.advanceWrites_of_steady {cfg : Config} {f : Bool} {r : Channel} (h : r.startAspect = r.endAspect)
    (ht : effective r.nextAspect f = r.endAspect) : r.advanceWrites cfg f = steadyWrites r.endAspect := by
  have hwrites : r.beginWrites (effective r.nextAspect f) = [] := if_neg fun g => g.2 ht
  have hbegin : r.begin (effective r.nextAspect f) = r := if_neg fun g => g.2 ht
  rw [advanceWrites, hwrites, hbegin, walkWrites, if_pos h, walk, if_pos h, settleWrites, if_pos h]
  rfl

theorem Channel.advanceWrites_of_begin {cfg : Config} {f : Bool} {r : Channel} (h : r.startAspect = r.endAspect)
    (ht : effective r.nextAspect f ≠ r.endAspect) :
    r.advanceWrites cfg f = [.phase 0, .endAspect (effective r.nextAspect f)] ++
      (begunTo r (effective r.nextAspect f)).advanceWrites cfg f := by
  have hwrites : r.beginWrites (effective r.nextAspect f) = [.phase 0, .endAspect (effective r.nextAspect f)] :=
    if_pos ⟨h, ht⟩
  have hbegin : r.begin (effective r.nextAspect f) = begunTo r (effective r.nextAspect f) := if_pos ⟨h, ht⟩
  have hbegun (t : Aspect) : (begunTo r (effective r.nextAspect f)).beginWrites t = [] :=
    if_neg fun g => begunTo_in_transition h ht g.1
  rw [advanceWrites, hwrites, hbegin, advanceWrites, hbegun, begin_of_transition _ (begunTo_in_transition h ht),
    List.nil_append, List.append_assoc]

/-! ### The order of the writes, walk by walk (41 R148) -/

theorem steadyWritesInOrder (cfg : Config) (f : Bool) (r : Channel) : SteadyWritesInOrder cfg f r := by
  intro h
  rw [← effective_eq_targetOf]
  split
  · next ht => exact Channel.advanceWrites_of_steady h ht
  · next ht => exact Channel.advanceWrites_of_begin h ht

/-- Where the skip loop does not run. -/
theorem Channel.advanceWrites_of_start_ne_off {cfg : Config} (f : Bool) {r : Channel}
    (h : r.startAspect ≠ r.endAspect) (hoff : r.startAspect ≠ .off) :
    r.advanceWrites cfg f = r.tableStepWrites r.route (activeTable cfg r) := by
  rw [advanceWrites_of_transition f h, entryPhase_of_ne_off hoff, skipRounds_self]
  rfl

/-- The writes of a step of a searchlight's walk. -/
theorem Channel.advanceWrites_of_entry {cfg : Config} (f : Bool) {r : Channel} {w : Route} {e : Entry}
    (h : r.startAspect ≠ r.endAspect) (hroute : r.route = w) (hw : w ≠ .fade)
    (he : tableGet (routeTable cfg w) r.phase.toNat = some e) :
    r.advanceWrites cfg f =
      r.entryWrites w e ++ passWrites (tableLen (routeTable cfg w)) r.phase r.endAspect := by
  subst hroute
  rw [advanceWrites_of_start_ne_off f h (start_ne_off_of_route hw), tableStepWrites, activeTable, he]
  exact if_neg fun g => hw g.1

theorem throughRedWritesInOrder (cfg : Config) (f : Bool) (r : Channel) : ThroughRedWritesInOrder cfg f r := by
  intro hsl e he
  have step (hends : r.startAspect = .green ∧ r.endAspect = .yellow ∨ r.startAspect = .yellow ∧ r.endAspect = .green) :=
    Channel.advanceWrites_of_entry (cfg := cfg) f (green_yellow_ne hends) (Channel.route_eq_gy hsl hends) nofun he
  refine ⟨fun hs hend => ?_, fun hs hend => ?_⟩
  · rw [step (.inl ⟨hs, hend⟩), Channel.entryWrites, hs, hend]
    rfl
  · rw [step (.inr ⟨hs, hend⟩), Channel.entryWrites, hs, hend]
    rfl

theorem involvingRedWritesInOrder (cfg : Config) (f : Bool) (r : Channel) : InvolvingRedWritesInOrder cfg f r :=
  fun h hroute _ he => Channel.advanceWrites_of_entry f h hroute nofun he

theorem fadeWritesInOrder (cfg : Config) (f : Bool) (r : Channel) : FadeWritesInOrder cfg f r := by
  intro h hroute q hq
  rw [Channel.advanceWrites_of_transition f h, Channel.entryPhase_of_skipsTo hq, activeTable, hroute]
  unfold Channel.tableStepWrites
  simp only [true_and]
  rfl

theorem guardWritesInOrder (cfg : Config) (f : Bool) (r : Channel) : GuardWritesInOrder cfg f r := by
  intro h hroute hpast
  rw [Channel.advanceWrites_of_start_ne_off f h (Channel.start_ne_off_of_route hroute), Channel.tableStepWrites,
    (tableGet_none_iff _ _).2 hpast]

end Sys2Proof.Machine
end

section
/-! PROOFS of 43 R197: the units of an ADVANCE, with nothing between them, do its byte writes. The idea: the relation
`AdvanceUnit.Writes` runs the units to the end, so a unit's writes are its own and those of the units it leads to; the
fuel of `Channel.unitWrites` is enough, as an ADVANCE has fewer than 64 writes. -/

namespace Sys2Proof.Machine

open Claims

/-- The byte writes from unit `u` on, with the record `r` and nothing that writes it between the units, are `ws`. -/
inductive AdvanceUnit.Writes (cfg : Config) : AdvanceUnit → Channel → List ChanWrite → Prop
  | done (r : Channel) : Writes cfg .done r []
  | last (w : ChanWrite) (r : Channel) : Writes cfg (.last w) r [w]
  | write (w : ChanWrite) (p : AdvancePoint) (r : Channel) (ws : List ChanWrite)
      (h : Writes cfg ((r.write w).unitAt cfg p) (r.write w) ws) : Writes cfg (.write w p) r (w :: ws)

theorem AdvanceUnit.Writes.unitWrites_eq {cfg : Config} {u : AdvanceUnit} {r : Channel} {ws : List ChanWrite}
    (h : u.Writes cfg r ws) {n : Nat} (hn : ws.length < n) : r.unitWrites cfg n u = ws := by
  induction h generalizing n with
  | done r => obtain ⟨n, rfl⟩ := Nat.exists_eq_add_of_lt hn; rw [Channel.unitWrites]
  | last w r => obtain ⟨n, rfl⟩ := Nat.exists_eq_add_of_lt hn; rw [Channel.unitWrites]
  | write w p r ws _ ih =>
    obtain ⟨n, rfl⟩ := Nat.exists_eq_add_of_lt hn
    rw [Channel.unitWrites, ih (by rw [List.length_cons]; omega)]

namespace Channel

variable {cfg : Config} {r : Channel} {ws : List ChanWrite}

theorem settleUnit_writes (cfg : Config) (h : r.startAspect = r.endAspect) :
    r.settleUnit.Writes cfg r (steadyWrites r.endAspect) := by
  rw [settleUnit, if_pos h]
  exact .write _ _ _ _ (.write _ _ _ _ (.last _ _))

theorem settleUnit_writes_of_transition (cfg : Config) (h : r.startAspect ≠ r.endAspect) :
    r.settleUnit.Writes cfg r [] := by
  rw [settleUnit, if_neg h]
  exact .done r

theorem finishUnit_writes (cfg : Config) (r : Channel) : r.finishUnit.Writes cfg r (endWrites r.endAspect) :=
  .write _ _ _ _ (.write _ _ _ _ (settleUnit_writes cfg rfl))

theorem phaseUnit_writes {w : Route} (h : r.startAspect ≠ r.endAspect)
    (hp : r.phase.toNat < tableLen (routeTable cfg w)) :
    (r.phaseUnit w).Writes cfg r (passWrites (tableLen (routeTable cfg w)) r.phase r.endAspect) := by
  have hsucc := phase_succ hp (tableLen_bounds _).2
  refine .write _ _ _ _ ?_
  change (exhaustedUnit cfg w (r.write (.phase (r.phase + 1)))).Writes _ _ _
  rw [exhaustedUnit]
  by_cases hin : r.phase.toNat + 1 < tableLen (routeTable cfg w)
  · rw [if_neg (by change ¬ _ ≤ (r.phase + 1).toNat; omega), if_pos hin]
    exact settleUnit_writes_of_transition cfg h
  · rw [if_pos (by change _ ≤ (r.phase + 1).toNat; omega), if_neg hin]
    exact finishUnit_writes cfg _

theorem write_dutyWrite (r : Channel) (c : Color) (v : Byte) : r.write (dutyWrite c v) = r.setDuty c v := by
  cases c <;> rfl

theorem arrivalUnit_writes {w : Route} {e : Entry}
    (h : (afterArrivalUnit w e (r.setDuty? (colorOf r.endAspect) (level e.up))).Writes cfg
      (r.setDuty? (colorOf r.endAspect) (level e.up)) ws) :
    (r.arrivalUnit w e).Writes cfg r (colorWrite r.endAspect e.up ++ ws) := by
  rw [← dutyWrite?_colorOf]
  unfold arrivalUnit
  cases hcolor : colorOf r.endAspect with
  | none => rwa [hcolor] at h
  | some c =>
    rw [hcolor] at h
    refine .write _ _ _ _ ?_
    rwa [unitAt_afterArrival, write_dutyWrite]

theorem departureUnit_writes {w : Route} {e : Entry}
    (h : (arrivalUnit w e (r.setDuty? (colorOf r.startAspect) (level e.down))).Writes cfg
      (r.setDuty? (colorOf r.startAspect) (level e.down)) ws) :
    (r.departureUnit w e).Writes cfg r (colorWrite r.startAspect e.down ++ ws) := by
  rw [← dutyWrite?_colorOf]
  unfold departureUnit
  cases hcolor : colorOf r.startAspect with
  | none => rwa [hcolor] at h
  | some c =>
    rw [hcolor] at h
    refine .write _ _ _ _ ?_
    rwa [write_dutyWrite]

/-- The coloured duties and what follows them, whatever duties the record held before. -/
theorem departureUnit_writes_colors {w : Route} {e : Entry}
    (h : ∀ t : Channel, r.SameButDuties t → (t.afterArrivalUnit w e).Writes cfg t ws) :
    (r.departureUnit w e).Writes cfg r (colorWrite r.startAspect e.down ++ (colorWrite r.endAspect e.up ++ ws)) := by
  have hdeparted := setDuty?_sameButDuties r (colorOf r.startAspect) (level e.down)
  have hend : (r.setDuty? (colorOf r.startAspect) (level e.down)).endAspect = r.endAspect := by
    obtain ⟨x, y, z, ht⟩ := hdeparted
    rw [ht]
  refine departureUnit_writes ?_
  rw [← hend]
  exact arrivalUnit_writes (h _ (hdeparted.trans (setDuty?_sameButDuties _ _ _)))

/-- The zeroing writes, the coloured duties and what follows them. -/
theorem zeroUnit_writes {w : Route} {e : Entry}
    (h : ∀ t : Channel, r.SameButDuties t → (t.afterArrivalUnit w e).Writes cfg t ws) :
    AdvanceUnit.Writes cfg (.write (.redDuty 0) (.zeroYellow w e)) r (zeroedWrites r e ++ ws) := by
  rw [zeroedWrites, List.append_assoc, List.append_assoc]
  refine .write _ _ _ _ (.write _ _ _ _ (.write _ _ _ _ ?_))
  exact departureUnit_writes_colors (r := r.zeroDuties) fun t ht => h t (.trans ⟨0, 0, 0, rfl⟩ ht)

theorem entryUnit_writes {w : Route} (h : r.startAspect ≠ r.endAspect) :
    (r.entryUnit cfg w).Writes cfg r (r.tableStepWrites w (routeTable cfg w)) := by
  unfold entryUnit tableStepWrites
  cases he : tableGet (routeTable cfg w) r.phase.toNat with
  | none => exact finishUnit_writes cfg r
  | some e =>
    have hphase (t : Channel) (ht : r.SameButDuties t) :
        (t.phaseUnit w).Writes cfg t (passWrites (tableLen (routeTable cfg w)) r.phase r.endAspect) := by
      obtain ⟨x, y, z, rfl⟩ := ht
      exact phaseUnit_writes h (tableGet_lt he)
    cases w with
    | gy =>
      simp only [entryWrites, List.append_assoc, reduceCtorEq, false_and, if_false]
      exact departureUnit_writes_colors fun t ht => .write _ _ _ _ (hphase _ (ht.trans ⟨_, _, _, rfl⟩))
    | red =>
      simp only [reduceCtorEq, false_and, if_false]
      exact zeroUnit_writes hphase
    | fade =>
      simp only [true_and]
      split
      · exact finishUnit_writes cfg r
      · exact zeroUnit_writes hphase

theorem skipUnit_writes {n : Nat} (hn : 32 ≤ r.phase.toNat + n)
    (h : (entryUnit cfg .fade { r with phase := skipZeroUp (fadeTable cfg) n r.phase }).Writes cfg
      { r with phase := skipZeroUp (fadeTable cfg) n r.phase } ws) :
    (r.skipUnit cfg).Writes cfg r (skipWrites (fadeTable cfg) n r.phase ++ ws) := by
  induction n generalizing r with
  | zero =>
    have hnone := (tableGet_none_iff (fadeTable cfg) r.phase.toNat).2 hn
    rw [skipUnit, hnone]
    exact h
  | succ n ih =>
    unfold skipUnit skipWrites
    unfold skipZeroUp at h
    cases he : tableGet (fadeTable cfg) r.phase.toNat with
    | none =>
      rw [he] at h
      exact h
    | some e =>
      simp only [he] at h ⊢
      by_cases hup : e.up = 0
      · have hsucc := phase_succ (tableGet_lt he) (tableLen_bounds _).2
        simp only [if_pos hup] at h ⊢
        refine .write _ _ _ _ ?_
        exact ih (r := { r with phase := r.phase + 1 }) (by simp only [hsucc]; omega) h
      · simp only [if_neg hup] at h ⊢
        exact h

theorem dispatchUnit_of_transition (cfg : Config) (h : r.startAspect ≠ r.endAspect) :
    r.dispatchUnit cfg = if r.startAspect = .off then r.skipUnit cfg else r.entryUnit cfg r.route := by
  rw [dispatchUnit, if_neg h]
  cases hroute : r.route with
  | gy => exact (if_neg (start_ne_off_of_route (hroute ▸ nofun))).symm
  | red => exact (if_neg (start_ne_off_of_route (hroute ▸ nofun))).symm
  | fade => rfl

theorem dispatchUnit_writes (f : Bool) (h : r.startAspect ≠ r.endAspect) :
    (r.dispatchUnit cfg).Writes cfg r (r.advanceWrites cfg f) := by
  rw [advanceWrites_of_transition f h, dispatchUnit_of_transition cfg h]
  have hentry : (entryUnit cfg r.route { r with phase := r.entryPhase cfg }).Writes cfg
      { r with phase := r.entryPhase cfg }
      (tableStepWrites r.route (activeTable cfg r) { r with phase := r.entryPhase cfg }) :=
    entryUnit_writes h
  generalize tableStepWrites r.route (activeTable cfg r) { r with phase := r.entryPhase cfg } = ws at hentry ⊢
  by_cases hoff : r.startAspect = .off
  · rw [route_of_start_off hoff] at hentry
    rw [entryPhase, if_pos hoff] at hentry ⊢
    rw [if_pos hoff, ← skipWrites_eq_skipRounds]
    exact skipUnit_writes (Nat.le_add_left 32 _) hentry
  · rw [entryPhase_of_ne_off hoff] at hentry ⊢
    rw [if_neg hoff, skipRounds_self]
    exact hentry

/-- The units of an ADVANCE, with nothing between them, do its byte writes. -/
theorem beginUnit_writes (cfg : Config) (f : Bool) (r : Channel) :
    (r.beginUnit cfg f).Writes cfg r (r.advanceWrites cfg f) := by
  unfold beginUnit
  by_cases h : r.startAspect = r.endAspect
  · by_cases ht : effective r.nextAspect f = r.endAspect
    · rw [if_neg fun g => g.2 ht, advanceWrites_of_steady h ht, dispatchUnit, if_pos h]
      exact settleUnit_writes cfg h
    · rw [if_pos ⟨h, ht⟩, advanceWrites_of_begin h ht]
      refine .write _ _ _ _ (.write _ _ _ _ ?_)
      exact dispatchUnit_writes f (begunTo_in_transition h ht)
  · rw [if_neg fun g => h g.1]
    exact dispatchUnit_writes f h

/-! ### How many writes an ADVANCE has -/

theorem length_tableStepWrites_le (w : Route) (t : Table) (r : Channel) : (r.tableStepWrites w t).length ≤ 11 := by
  have hcolor (a : Aspect) (v : BitVec 5) : (colorWrite a v).length ≤ 1 := by cases a <;> simp [colorWrite]
  have hend (a : Aspect) : (endWrites a).length = 5 := rfl
  have hpass (len : Nat) (p : Byte) (a : Aspect) : (passWrites len p a).length ≤ 6 := by
    unfold passWrites
    split <;> simp [hend]
  have hentry (e : Entry) : (r.entryWrites w e).length ≤ 5 := by
    have hs := hcolor r.startAspect e.down
    have he := hcolor r.endAspect e.up
    cases w <;> simp only [entryWrites, zeroedWrites, List.length_append, List.length_cons, List.length_nil] <;> omega
  unfold tableStepWrites
  split
  · simp [hend]
  · split
    · simp [hend]
    · next e _ _ =>
      have := hentry e
      have := hpass (tableLen t) r.phase r.endAspect
      rw [List.length_append]
      omega

theorem length_advanceWrites_of_transition_le (cfg : Config) (f : Bool) (h : r.startAspect ≠ r.endAspect) :
    (r.advanceWrites cfg f).length ≤ 43 := by
  have hstep := length_tableStepWrites_le r.route (activeTable cfg r) { r with phase := r.entryPhase cfg }
  have hskip : (skipRounds r.phase (r.entryPhase cfg)).length ≤ 32 := by
    rw [skipRounds, List.length_map, List.length_range]
    rcases r.entryPhase_le cfg with hle | hsame
    · omega
    · rw [hsame]
      omega
  rw [advanceWrites_of_transition f h, List.length_append]
  omega

theorem length_advanceWrites_lt (cfg : Config) (f : Bool) (r : Channel) : (r.advanceWrites cfg f).length < 64 := by
  by_cases h : r.startAspect = r.endAspect
  · by_cases ht : effective r.nextAspect f = r.endAspect
    · simp [advanceWrites_of_steady h ht, steadyWrites]
    · have := length_advanceWrites_of_transition_le cfg f (begunTo_in_transition h ht)
      rw [advanceWrites_of_begin h ht, List.length_append, List.length_cons, List.length_cons, List.length_nil]
      omega
  · have := length_advanceWrites_of_transition_le cfg f h
    omega

end Channel

/-! ### The main loop's units (43 R193, R194, R197) -/

theorem afterAdvance_eq_advance_iff (k j : Ch) : afterAdvance k = .advance j ↔ j.val = k.val + 1 := by
  unfold afterAdvance
  split
  · next h => rw [MainLoop.advance.injEq, Fin.ext_iff, eq_comm]
  · next h => exact ⟨nofun, fun hj => absurd j.isLt (by omega)⟩

theorem runAgent_main_of_advance {s : State} {k : Ch} (poll : Bool) (h : s.main = .advance k) :
    runAgent (.main poll) s = .next (s.beginAdvance k) := by
  change Host.Outcome.next (s.mainUnit poll) = _
  rw [State.mainUnit, h]

theorem runAgent_main_of_writing {s : State} {k : Ch} {p : AdvancePoint} (poll : Bool) (h : s.main = .writing k p) :
    runAgent (.main poll) s = .next (s.advanceUnit k ((s.chan k).unitAt s.cfg p)) := by
  change Host.Outcome.next (s.mainUnit poll) = _
  rw [State.mainUnit, h]

/-- Settles O36: the writes make the record, the units do the writes, and the main loop's units are those. -/
theorem byteWritesMakeTheAdvance : Obligations.ByteWritesMakeTheAdvance := by
  refine ⟨fun s k f => ?_, fun cfg f r => ?_, fun s k poll hmain => ⟨fun hgran => ?_, fun hgran => ?_⟩,
    fun s k p poll hmain => ?_, afterAdvance_eq_advance_iff, rfl⟩
  · exact ⟨_, exec_advance s k f, s.chan_advance_same k f ▸ Channel.writeAll_advanceWrites s.cfg f _,
      (Channel.beginUnit_writes s.cfg f _).unitWrites_eq (Channel.length_advanceWrites_lt s.cfg f _)⟩
  · exact ⟨steadyWritesInOrder cfg f r, throughRedWritesInOrder cfg f r, involvingRedWritesInOrder cfg f r,
      fadeWritesInOrder cfg f r, guardWritesInOrder cfg f r⟩
  · refine ⟨_, runAgent_main_of_advance poll hmain, ?_⟩
    rw [State.beginAdvance, hgran]
    exact s.advanceUnit_doesUnit k _
  · refine ⟨_, exec_advance s k s.flasher, ?_⟩
    rw [runAgent_main_of_advance poll hmain, State.beginAdvance, hgran]
  · exact ⟨_, runAgent_main_of_writing poll hmain, s.advanceUnit_doesUnit k _⟩

end Sys2Proof.Machine
end

section
/-! PROOFS of 42_pwm_output.md: DRIVE, the lit phases, TICK and its counters. The idea: a driven line is `lineLevel`
of its duty, the phase and the polarity; a counter mod a parameter is the remainder of its start plus the number of
ticks, and has wrapped quotient many times (`CountsMod`). On a fair run only ticks move the phase counter, so it comes
to 31, and the next tick sets the wrap flag. -/

namespace Sys2Proof.Machine

/-! ### Line levels (42 R170 to R172) -/

theorem lineLevel_eq (d : Byte) (p : BitVec 5) (invert : Bool) :
    lineLevel d p invert = (decide (d > p.setWidth 8) != invert) := by
  have hlt : p.toNat < d.toNat ↔ d > p.setWidth 8 := by
    rw [gt_iff_lt, BitVec.lt_def, BitVec.toNat_setWidth_of_le (by decide)]
  rw [lineLevel, decide_eq_decide.2 hlt]

/-- A line has its lit level, high unless inverted, exactly while the phase is below the duty. -/
theorem lineLevel_eq_not_invert_iff (d : Byte) (p : BitVec 5) (invert : Bool) :
    lineLevel d p invert = !invert ↔ p.toNat < d.toNat := by
  cases invert <;> simp [lineLevel]

theorem readLine_of_out {t : State} {k : Ch} {r : Channel} {p : BitVec 5} (h : t.out.get k = r.lines p) (c : Color) :
    readLine t k c = .ok (decide (r.duty c > p.setWidth 8) != r.optInvert) := by
  rw [readLine, h, Channel.lines_line, lineLevel_eq]

/-! ### DRIVE -/

theorem State.drive_out_same (s : State) (k : Ch) (p : BitVec 5) : (s.drive k p).out.get k = (s.chan k).lines p :=
  Bank.get_set_same _ _ _

/-- Settles O40: DRIVE replaces the lines of its channel. -/
theorem driveSetsTheThreeLines : Obligations.DriveSetsTheThreeLines := fun s k p =>
  ⟨s.drive k p, rfl, readLine_of_out (s.drive_out_same k p), fun _ hj => Bank.get_set_ne s.out _ hj, fun _ => rfl,
    ⟨rfl, rfl, rfl, rfl, rfl, rfl⟩, ⟨rfl, rfl, rfl⟩, fun _ => rfl, ⟨rfl, rfl⟩, ⟨rfl, rfl, rfl, rfl, rfl⟩, rfl⟩

theorem levelAfterDrive_eq (s : State) (k : Ch) (p : BitVec 5) (c : Color) :
    levelAfterDrive s k p c = some (lineLevel ((s.chan k).duty c) p (s.chan k).optInvert) := by
  change ((s.drive k p).out.get k).line c = _
  rw [State.drive_out_same, Channel.lines_line]

/-- Settles O41: of 32 phases the lit ones are those below the duty. -/
theorem dutyIsTheNumberOfLitPhases : Obligations.DutyIsTheNumberOfLitPhases := by
  intro s k c hduty
  have hlit : ∀ p ∈ List.range 32,
      decide (levelAfterDrive s k (BitVec.ofNat 5 p) c = some (!(s.chan k).optInvert)) =
        decide (p < ((s.chan k).duty c).toNat) := by
    intro p hp
    rw [decide_eq_decide, levelAfterDrive_eq, Option.some_inj, lineLevel_eq_not_invert_iff, BitVec.toNat_ofNat,
      Nat.mod_eq_of_lt (List.mem_range.1 hp)]
  rw [List.filter_congr hlit, ← List.Ico.zero_bot, List.Ico.filter_lt, min_eq_right (by omega), List.Ico.zero_bot]

/-! ### TICK (42 R173 to R177) -/

theorem State.toNat_tick_pwmPhase (s : State) : s.tick.pwmPhase.toNat = (s.pwmPhase.toNat + 1) % 32 := by
  rw [State.tick_pwmPhase]
  exact BitVec.toNat_add _ _

theorem State.tick_updateFlag_eq (s : State) :
    s.tick.updateFlag = (s.updateFlag || decide (s.pwmPhase.toNat = 31)) := by
  have hwrap : s.pwmPhase + 1 = 0 ↔ s.pwmPhase.toNat = 31 := by bv_omega
  rw [State.tick_updateFlag, Bool.beq_eq_decide_eq, decide_eq_decide.2 hwrap]

theorem toNat_add_one (v : BitVec 32) : (v + 1).toNat = (v.toNat + 1) % 4294967296 := BitVec.toNat_add _ _

/-- Settles O42: the lines, then each counter at its modulus or below it. -/
theorem tickDrivesThenCounts : Obligations.TickDrivesThenCounts := by
  intro s
  obtain ⟨hchans, hdeb, hmap, hlevels, hmodel, hresult, -⟩ := s.tick_keeps
  refine ⟨s.tick, rfl, fun k => readLine_of_out (s.tick_out k), s.toNat_tick_pwmPhase, s.tick_updateFlag_eq, ?_, ?_,
    hchans, hdeb, hmap, hlevels, hmodel, hresult⟩
  · rcases s.tick_millis with ⟨hwrap, hacc, hcount⟩ | ⟨hwrap, hkept⟩
    · rw [if_pos hwrap, hcount]
      exact ⟨hacc, toNat_add_one _⟩
    · rwa [if_neg hwrap]
  · rcases s.tick_flasher with ⟨hwrap, htoggled⟩ | ⟨hwrap, hkept⟩
    · rwa [if_pos hwrap]
    · rwa [if_neg hwrap]

/-! ### Several ticks -/

theorem execAll_ticks (n : Nat) (s : State) : execAll (List.replicate n Instr.tick) s = .next (State.tick^[n] s) := by
  induction n generalizing s with
  | zero => rfl
  | succ n ih => exact ih s.tick

/-- A counter mod `m`, tick by tick: it rises by 1, or at its wrap to 0 moves what it drives on by `f`. -/
def CountsMod {β : Type} (m : Nat) (c : Nat → Nat) (f : β → β) (x : Nat → β) : Prop :=
  ∀ n, c n + 1 = m ∧ c (n + 1) = 0 ∧ x (n + 1) = f (x n) ∨ c n + 1 ≠ m ∧ c (n + 1) = c n + 1 ∧ x (n + 1) = x n

/-- After `n` ticks the counter is the remainder of what was counted, and `f` was applied quotient many times. -/
theorem CountsMod.closed_form {β : Type} {m : Nat} {c : Nat → Nat} {f : β → β} {x : Nat → β}
    (h : CountsMod m c f x) (h0 : c 0 < m) (n : Nat) :
    c n = (c 0 + n) % m ∧ x n = f^[(c 0 + n) / m] (x 0) := by
  have key : ∃ q, c n + m * q = c 0 + n ∧ c n < m ∧ x n = f^[q] (x 0) := by
    induction n with
    | zero => exact ⟨0, rfl, h0, rfl⟩
    | succ n ih =>
      obtain ⟨q, hsum, hlt, hx⟩ := ih
      rcases h n with ⟨hwrap, hc, hnext⟩ | ⟨hwrap, hc, hnext⟩
      · exact ⟨q + 1, by rw [Nat.mul_add]; omega, by omega, by rw [hnext, hx, Function.iterate_succ_apply']⟩
      · exact ⟨q, by omega, by omega, hnext.trans hx⟩
  obtain ⟨q, hsum, hlt, hx⟩ := key
  obtain ⟨hdiv, hmod⟩ := (Nat.div_mod_unique (Nat.zero_lt_of_lt h0)).2 ⟨hsum, hlt⟩
  rw [hdiv, hmod]
  exact ⟨rfl, hx⟩

theorem toNat_iterate_add_one (v : BitVec 32) (q : Nat) : ((· + 1)^[q] v).toNat = (v.toNat + q) % 4294967296 := by
  induction q with
  | zero => exact (Nat.mod_eq_of_lt v.isLt).symm
  | succ q ih => rw [Function.iterate_succ_apply', toNat_add_one, ih, Nat.mod_add_mod, Nat.add_assoc]

theorem iterate_not (b : Bool) (q : Nat) : not^[q] b = (b ^^ decide (q % 2 = 1)) := by
  rcases Nat.even_or_odd q with hq | hq
  · rw [Bool.involutive_not.iterate_even hq, Nat.even_iff.1 hq]
    simp
  · rw [Bool.involutive_not.iterate_odd hq, Nat.odd_iff.1 hq]
    simp

namespace State

theorem ticks_cfg (s : State) (n : Nat) : (tick^[n] s).cfg = s.cfg := by
  induction n with
  | zero => rfl
  | succ n ih => rw [Function.iterate_succ_apply', tick_cfg, ih]

theorem toNat_ticks_pwmPhase (s : State) (n : Nat) : (tick^[n] s).pwmPhase.toNat = (s.pwmPhase.toNat + n) % 32 := by
  induction n with
  | zero => exact (Nat.mod_eq_of_lt s.pwmPhase.isLt).symm
  | succ n ih =>
    rw [Function.iterate_succ_apply', toNat_tick_pwmPhase, ih]
    omega

theorem ticks_updateFlag (s : State) (n : Nat) :
    (tick^[n] s).updateFlag = (s.updateFlag || decide (32 ≤ s.pwmPhase.toNat + n)) := by
  have hphase := s.pwmPhase.isLt
  induction n with
  | zero => simp [hphase]
  | succ n ih =>
    have hwrap : 32 ≤ s.pwmPhase.toNat + n ∨ (s.pwmPhase.toNat + n) % 32 = 31 ↔ 32 ≤ s.pwmPhase.toNat + (n + 1) := by
      omega
    rw [Function.iterate_succ_apply', tick_updateFlag_eq, ih, toNat_ticks_pwmPhase, Bool.or_assoc, ← Bool.decide_or,
      decide_eq_decide.2 hwrap]

theorem ticks_msAcc_counts (s : State) :
    CountsMod s.cfg.ticksPerMs (fun n => (tick^[n] s).msAcc) (· + 1) fun n => (tick^[n] s).msCount := by
  intro n
  simp only [Function.iterate_succ_apply', ← s.ticks_cfg n]
  exact (tick^[n] s).tick_millis

theorem ticks_flashCount_counts (s : State) :
    CountsMod s.cfg.flashToggleTicks (fun n => (tick^[n] s).flashCount) not fun n => (tick^[n] s).flasher := by
  intro n
  simp only [Function.iterate_succ_apply', ← s.ticks_cfg n]
  exact (tick^[n] s).tick_flasher

end State

/-! ### Fair runs (43 R203) -/

theorem State.beginAdvance_pwmPhase (s : State) (k : Ch) : (s.beginAdvance k).pwmPhase = s.pwmPhase := by
  unfold State.beginAdvance
  split
  · rfl
  · exact State.advanceUnit_pwmPhase s k _

theorem State.mainUnit_pwmPhase (s : State) (poll : Bool) : (s.mainUnit poll).pwmPhase = s.pwmPhase := by
  unfold State.mainUnit
  cases s.main with
  | advance k => exact s.beginAdvance_pwmPhase k
  | writing k p => exact State.advanceUnit_pwmPhase s k _
  | serviceDone => cases poll <;> rfl
  | _ => rfl

/-- Both rows of HOST_WRITE are the one byte write. -/
theorem runAgent_hostWrite (r : Fin 24) (v : Byte) (s : State) :
    runAgent (.hostWrite r v) s = s.hostWrite (BitVec.ofNat 8 r.val) v := by
  by_cases hr : r.val < 16
  · rw [runAgent, agentInstr, if_pos hr]
    rfl
  · rw [runAgent, agentInstr, if_neg hr]
    rfl

theorem runAgent_of_tick {a : AgentStep} (ha : agentOf a = .tick) (s : State) : runAgent a s = .next s.tick := by
  cases a with
  | tick => rfl
  | _ => cases ha

theorem runAgent_pwmPhase_of_not_tick {a : AgentStep} {s t : State} (ha : agentOf a ≠ .tick)
    (h : runAgent a s = .next t) : t.pwmPhase = s.pwmPhase := by
  cases a with
  | tick => exact absurd rfl ha
  | main poll =>
    cases h
    exact s.mainUnit_pwmPhase poll
  | hostWrite r v =>
    rw [runAgent_hostWrite] at h
    obtain ⟨hphase, -⟩ := State.hostWrite_keepsBut h .counters (by simp)
    exact hphase
  | hostBusy l | hostSense v =>
    cases h
    rfl

section Runs

variable {σ : Nat → State} {α : Nat → AgentStep}

theorem IsRun.step_of_tick (hrun : IsRun σ α) {n : Nat} (htick : agentOf (α n) = .tick) : σ (n + 1) = (σ n).tick :=
  Host.Outcome.next.inj ((hrun n).symm.trans (runAgent_of_tick htick _))

/-- Up to the next step of the tick agent the phase counter stands still. -/
theorem IsRun.exists_next_tick (hrun : IsRun σ α) (d n : Nat) (htick : agentOf (α (n + d)) = .tick) :
    ∃ m, n ≤ m ∧ σ (m + 1) = (σ m).tick ∧ (σ m).pwmPhase = (σ n).pwmPhase := by
  induction d generalizing n with
  | zero => exact ⟨n, le_rfl, hrun.step_of_tick htick, rfl⟩
  | succ d ih =>
    by_cases hn : agentOf (α n) = .tick
    · exact ⟨n, le_rfl, hrun.step_of_tick hn, rfl⟩
    · obtain ⟨m, hm, hstep, hphase⟩ := ih (n + 1) (by rwa [Nat.add_right_comm])
      exact ⟨m, by omega, hstep, hphase.trans (runAgent_pwmPhase_of_not_tick hn (hrun n))⟩

theorem tick_enabledIn (s : State) : Agent.tick.EnabledIn s := ⟨.tick, s.tick, rfl, rfl⟩

theorem exists_tick_of_fair (hrun : IsRun σ α) (hfair : WeaklyFairTo .tick σ α) (n : Nat) :
    ∃ m, n ≤ m ∧ σ (m + 1) = (σ m).tick ∧ (σ m).pwmPhase = (σ n).pwmPhase := by
  obtain ⟨m, hm, htick⟩ := hfair n fun m _ => tick_enabledIn (σ m)
  obtain ⟨d, rfl⟩ := Nat.exists_eq_add_of_le hm
  exact hrun.exists_next_tick d n htick

/-- The wrap flag is set after at most `d + 1` more ticks, where `d` are left to phase 31. -/
theorem exists_updateFlag_of_fair (hrun : IsRun σ α) (hfair : WeaklyFairTo .tick σ α) (d n : Nat)
    (hd : (σ n).pwmPhase.toNat + d = 31) : ∃ m, n ≤ m ∧ (σ m).updateFlag = true := by
  induction d generalizing n with
  | zero =>
    obtain ⟨m, hm, hstep, hphase⟩ := exists_tick_of_fair hrun hfair n
    refine ⟨m + 1, by omega, ?_⟩
    rw [hstep, State.tick_updateFlag_eq, hphase, decide_eq_true (by omega), Bool.or_true]
  | succ d ih =>
    obtain ⟨m, hm, hstep, hphase⟩ := exists_tick_of_fair hrun hfair n
    have hrise := (σ m).toNat_tick_pwmPhase
    rw [← hstep, hphase] at hrise
    obtain ⟨j, hj, hflag⟩ := ih (m + 1) (by omega)
    exact ⟨j, by omega, hflag⟩

end Runs

/-- Settles O43: the closed forms of the two counters mod a parameter; and on a fair run the ticks left to phase 31
come, and one more. -/
theorem countersAfterTicks : Obligations.CountersAfterTicks := by
  refine ⟨fun s n hms hflash => ?_, fun σ α hfairRun n => ?_⟩
  · obtain ⟨hacc, hcount⟩ := s.ticks_msAcc_counts.closed_form hms n
    obtain ⟨hflashCount, hflasher⟩ := s.ticks_flashCount_counts.closed_form hflash n
    exact ⟨_, execAll_ticks n s, s.toNat_ticks_pwmPhase n, s.ticks_updateFlag n, hacc,
      (congrArg BitVec.toNat hcount).trans (toNat_iterate_add_one _ _), hflashCount, hflasher.trans (iterate_not _ _)⟩
  · obtain ⟨hrun, hfair, -⟩ := hfairRun
    have hphase := (σ n).pwmPhase.isLt
    exact exists_updateFlag_of_fair hrun hfair (31 - (σ n).pwmPhase.toNat) n (by omega)

end Sys2Proof.Machine
end

section
/-! PROOFS of 43 R190 to R192 and R197: what a step runs, and the main loop's units one by one. The idea: the main loop
runs unit by unit with nothing between as `State.mainUnit` iterated, whatever else is placed in the schedule. -/

namespace Sys2Proof.Machine

/-! ### The step -/

/-- Settles O9: a step takes the word off, and a word that decodes runs as its instruction. -/
theorem stepRunsTheScheduledWord : Obligations.StepRunsTheScheduledWord := by
  intro s w rest i hsched hdecode
  rw [step_of_sched hsched, runItem, hdecode, runDecoded]

theorem step_of_agent {s u : State} {a : AgentStep}
    (h : s.sched = .agent a :: u.sched ∧ u = { s with sched := u.sched } ∨
      s.sched = [] ∧ Config.freeAgent s.choice = a ∧ u = { s with choice := s.choice + 1 }) :
    step s = runAgent a u := by
  rcases h with ⟨hsched, hu⟩ | ⟨hsched, rfl, rfl⟩
  · rw [step_of_sched hsched, runItem, ← hu]
  · rw [step, hsched]

/-- Settles O11: a placed and a chosen agent step alike, and each agent's step is its operation or unit. -/
theorem stepOfAnAgent : Obligations.StepOfAnAgent := by
  intro s u a h
  rw [step_of_agent h]
  refine ⟨?_, ?_, ?_, ?_, ?_, ?_⟩
  · rintro rfl
    rfl
  · rintro poll rfl
    rfl
  · rintro r v rfl -
    exact runAgent_hostWrite r v u
  · rintro r v rfl -
    exact runAgent_hostWrite r v u
  · rintro l rfl
    rfl
  · rintro v rfl
    rfl

/-! ### The unit at each point of the main loop (43 R193, R195) -/

theorem runAgent_main (poll : Bool) (s : State) : runAgent (.main poll) s = .next (s.mainUnit poll) := rfl

namespace State

variable {s : State} {k : Ch} {a o : Byte} (poll : Bool)

theorem mainUnit_of_serviceRead (h : s.main = .serviceRead) : s.mainUnit poll = s.unitS1 := by rw [mainUnit, h]

theorem mainUnit_of_serviceClear (h : s.main = .serviceClear) : s.mainUnit poll = s.unitS2 := by rw [mainUnit, h]

theorem mainUnit_of_advance (h : s.main = .advance k) : s.mainUnit poll = s.beginAdvance k := by rw [mainUnit, h]

theorem mainUnit_of_writing {p : AdvancePoint} (h : s.main = .writing k p) :
    s.mainUnit poll = s.advanceUnit k ((s.chan k).unitAt s.cfg p) := by rw [mainUnit, h]

theorem mainUnit_of_serviceDone (h : s.main = .serviceDone) :
    s.mainUnit poll = if poll then s.unitP1 else s.unitS1 := by rw [mainUnit, h]

theorem mainUnit_of_pollBusy (h : s.main = .pollBusy) : s.mainUnit poll = s.unitP2 := by rw [mainUnit, h]

theorem mainUnit_of_pollAspect (h : s.main = .pollAspect k) :
    s.mainUnit poll = { s with main := .pollOption k (s.readReg (aspectOffset k)) } := by rw [mainUnit, h]

theorem mainUnit_of_pollOption (h : s.main = .pollOption k a) :
    s.mainUnit poll = { s with main := .pollTarget k a (s.readReg (optionOffset k)) } := by rw [mainUnit, h]

theorem mainUnit_of_pollTarget (h : s.main = .pollTarget k a o) :
    s.mainUnit poll = { s.setTarget k (decodeAspect a) with main := .pollSetOptions k o } := by rw [mainUnit, h]

theorem mainUnit_of_pollSetOptions (h : s.main = .pollSetOptions k o) :
    s.mainUnit poll = { s.setOptions k o with main := afterPollChannel k } := by rw [mainUnit, h]

end State

/-! ### Placed units -/

theorem State.advanceUnit_with_sched (s : State) (k : Ch) (u : AdvanceUnit) (l : List Item) :
    State.advanceUnit { s with sched := l } k u = { s.advanceUnit k u with sched := l } := by
  cases u <;> rfl

theorem State.beginAdvance_with_sched (s : State) (k : Ch) (l : List Item) :
    State.beginAdvance { s with sched := l } k = { s.beginAdvance k with sched := l } := by
  unfold State.beginAdvance
  cases s.cfg.granularity with
  | perChannel => rfl
  | perWrite => exact s.advanceUnit_with_sched k _ l

/-- A unit of the main loop neither reads nor writes the schedule. -/
theorem State.mainUnit_with_sched (s : State) (poll : Bool) (l : List Item) :
    State.mainUnit { s with sched := l } poll = { s.mainUnit poll with sched := l } := by
  unfold State.mainUnit
  cases s.main with
  | advance k => exact s.beginAdvance_with_sched k l
  | writing k p => exact s.advanceUnit_with_sched k _ l
  | serviceDone => cases poll <;> rfl
  | _ => rfl

theorem State.mainUnit_sched (s : State) (poll : Bool) : (s.mainUnit poll).sched = s.sched :=
  calc (s.mainUnit poll).sched
    _ = State.sched { s.mainUnit poll with sched := s.sched } := by rw [← s.mainUnit_with_sched]
    _ = s.sched := rfl

theorem step_withMainUnits (poll : Bool) (n : Nat) (s : State) :
    step (withMainUnits poll (n + 1) s) = .next (withMainUnits poll n (s.mainUnit poll)) := by
  have hsched : (withMainUnits poll (n + 1) s).sched = .agent (.main poll) :: (withMainUnits poll n s).sched := rfl
  have hnext : withMainUnits poll n (s.mainUnit poll) = (withMainUnits poll n s).mainUnit poll := by
    rw [withMainUnits, s.mainUnit_sched]
    exact (s.mainUnit_with_sched poll _).symm
  rw [hnext]
  exact step_of_sched hsched

/-- Placed units of the main loop run one after the other. -/
theorem runSteps_withMainUnits (poll : Bool) (n : Nat) (s : State) :
    runSteps n (withMainUnits poll n s) = .next ((State.mainUnit · poll)^[n] s) := by
  induction n generalizing s with
  | zero => rfl
  | succ n ih =>
    rw [runSteps, step_withMainUnits]
    exact ih _

end Sys2Proof.Machine
end

section
/-! PROOFS of 43 R193 to R195: SERVICE and POLL alone. -/

namespace Sys2Proof.Machine

open Claims

/-! ### SERVICE -/

theorem State.service_of_wrap {s : State} (h : s.updateFlag = true) :
    s.service = State.advanceAll { s with updateFlag := false } s.flasher := if_pos h

theorem State.service_of_no_wrap {s : State} (h : s.updateFlag = false) : s.service = s := if_neg (by simp [h])

/-- SERVICE writes the channels and the wrap flag alone. -/
theorem State.exists_service_eq (s : State) :
    ∃ (c : Bank Channel) (f : Bool), s.service = { s with chans := c, updateFlag := f } := by
  cases h : s.updateFlag with
  | true => exact ⟨_, _, s.service_of_wrap h⟩
  | false => exact ⟨s.chans, s.updateFlag, s.service_of_no_wrap h⟩

/-- Settles O49: with the flag set, SERVICE is `advanceAll` with the flag cleared; each channel is advanced alone. -/
theorem serviceAdvancesEveryChannelOnce : Obligations.ServiceAdvancesEveryChannelOnce := by
  intro s
  refine ⟨s.service, rfl, s.service_of_no_wrap, fun h => ?_, ?_⟩
  · rw [s.service_of_wrap h]
    refine ⟨rfl, fun k => ⟨_, exec_advance s k s.flasher, ?_⟩⟩
    rw [State.chan_advanceAll, s.chan_advance_same]
    rfl
  · obtain ⟨c, f, hservice⟩ := s.exists_service_eq
    rw [hservice]
    exact ⟨rfl, rfl, rfl, rfl, rfl, ⟨rfl, rfl, rfl⟩, fun _ => rfl, ⟨rfl, rfl⟩, fun _ => rfl,
      ⟨rfl, rfl, rfl, rfl, rfl⟩, rfl⟩

/-! ### POLL -/

theorem State.poll_of_busy {s : State} (h : s.busBusy = true) : s.poll = s.debounce s.senseRaw := if_pos h

theorem State.poll_of_idle {s : State} (h : s.busBusy = false) : s.poll = (s.debounce s.senseRaw).takeCommands :=
  if_neg (by simp [h])

/-- POLL samples the sense byte, and beside that writes the channels alone. -/
theorem State.exists_poll_eq (s : State) :
    ∃ c : Bank Channel, s.poll = { s.debounce s.senseRaw with chans := c } := by
  cases h : s.busBusy with
  | true => exact ⟨s.chans, s.poll_of_busy h⟩
  | false => exact ⟨_, s.poll_of_idle h⟩

theorem State.poll_sameDebouncer (s : State) : SameDebouncer (s.debounce s.senseRaw) s.poll := by
  obtain ⟨c, hpoll⟩ := s.exists_poll_eq
  rw [hpoll]
  exact ⟨rfl, rfl, rfl⟩

/-- What an idle POLL makes of a channel record, by the words of the statements. -/
theorem State.chan_takeCommands_eq (s : State) (k : Ch) :
    s.takeCommands.chan k = { s.chan k with
      nextAspect := aspectOfCode (s.readReg (aspectOffset k)).toNat
      optSearchlight := decide ((s.readReg (optionOffset k)).toNat % 8 = 1)
      optInvert := invertOf ((s.readReg (optionOffset k)).toNat / 64) s } := by
  rw [chan_takeCommands, decodeAspect_eq_aspectOfCode, Channel.setOptions, optionSearchlight_eq, not_optionAnode_eq]
  rfl

/-- Settles O50: an idle POLL is the sample and `takeCommands` after it, a busy one the sample alone. -/
theorem pollTakesTheRegisterMapWhenIdle : Obligations.PollTakesTheRegisterMapWhenIdle := by
  intro s
  obtain ⟨c, hpoll⟩ := s.exists_poll_eq
  have hframe : s.poll.result = s.result ∧ SameTimers s s.poll ∧ SameRegmap s s.poll ∧ SameLevels s s.poll ∧
      SameOutputs s s.poll ∧ SameModel s s.poll := by
    rw [hpoll]
    exact ⟨rfl, ⟨rfl, rfl, rfl, rfl, rfl, rfl⟩, fun _ => rfl, ⟨rfl, rfl⟩, fun _ => rfl, ⟨rfl, rfl, rfl, rfl, rfl⟩⟩
  obtain ⟨hresult, hrest⟩ := hframe
  refine ⟨s.poll, _, rfl, rfl, s.poll_sameDebouncer, hresult, fun h k => ?_, fun h k => ?_, hrest⟩
  · rw [s.poll_of_busy h, State.chan_debounce]
  · rw [s.poll_of_idle h, State.chan_takeCommands_eq]
    rfl

end Sys2Proof.Machine
end

section
/-! PROOFS of 43 R193, R195 and R197: the main loop's SERVICE and POLL, unit by unit. The idea: channel by channel in
ascending order, the units of a channel's ADVANCE, or its two reads and two commands, replace its record
(`State.mapChansBelow`); the units of an ADVANCE end with its byte writes done, by `AdvanceUnit.Writes`. -/

namespace Sys2Proof.Machine

/-! ### Records replaced channel by channel -/

/-- The records of the channels below `n` replaced by `f`. -/
def State.mapChansBelow (f : Ch → Channel → Channel) (n : Nat) (s : State) : State :=
  { s with chans := Bank.ofFn fun k => if k.val < n then f k (s.chan k) else s.chan k }

namespace State

theorem with_chans_congr {s : State} {b c : Bank Channel} (h : ∀ k, b.get k = c.get k) :
    { s with chans := b } = { s with chans := c } := by rw [Bank.ext_get h]

variable (f : Ch → Channel → Channel) (s : State)

theorem chan_mapChansBelow (n : Nat) (k : Ch) :
    (s.mapChansBelow f n).chan k = if k.val < n then f k (s.chan k) else s.chan k := Bank.get_ofFn _ _

theorem mapChansBelow_zero : s.mapChansBelow f 0 = s :=
  with_chans_congr (c := s.chans) fun k => (s.chan_mapChansBelow f 0 k).trans (if_neg (Nat.not_lt_zero _))

theorem mapChansBelow_eight : s.mapChansBelow f 8 = { s with chans := Bank.ofFn fun k => f k (s.chan k) } := by
  simp only [mapChansBelow, Fin.is_lt, if_true]

theorem mapChansBelow_succ (k : Ch) :
    s.mapChansBelow f (k.val + 1) = (s.mapChansBelow f k.val).setChan k (f k (s.chan k)) := by
  refine with_chans_congr (s := s) (c := ((s.mapChansBelow f k.val).setChan k (f k (s.chan k))).chans) fun j => ?_
  change (s.mapChansBelow f (k.val + 1)).chan j = ((s.mapChansBelow f k.val).setChan k (f k (s.chan k))).chan j
  rw [chan_mapChansBelow]
  by_cases hj : j = k
  · rw [hj, chan_setChan_same, if_pos (Nat.lt_succ_self _)]
  · have hlt : j.val < k.val + 1 ↔ j.val < k.val := by have := Fin.val_ne_of_ne hj; omega
    rw [chan_setChan_ne _ _ hj, chan_mapChansBelow, if_congr hlt rfl rfl]

theorem chan_mapChansBelow_self (k : Ch) : (s.mapChansBelow f k.val).chan k = s.chan k :=
  (s.chan_mapChansBelow f k.val k).trans (if_neg (Nat.lt_irrefl _))

end State

/-! ### SERVICE -/

/-- The main loop comes from `s` to `t` by some of its units with nothing between. -/
def State.MainReaches (s t : State) : Prop := ∃ n : Nat, (State.mainUnit · false)^[n] s = t

theorem State.MainReaches.refl (s : State) : s.MainReaches s := ⟨0, rfl⟩

theorem State.MainReaches.of_mainUnit {s t : State} (h : (s.mainUnit false).MainReaches t) : s.MainReaches t := by
  obtain ⟨n, hn⟩ := h
  exact ⟨n + 1, hn⟩

theorem State.MainReaches.trans {s t u : State} (h : s.MainReaches t) (g : t.MainReaches u) : s.MainReaches u := by
  obtain ⟨m, rfl⟩ := h
  obtain ⟨n, rfl⟩ := g
  exact ⟨n + m, Function.iterate_add_apply _ n m s⟩

/-- From a unit of an ADVANCE on, the main loop does the unit's byte writes, and is past the ADVANCE. -/
theorem AdvanceUnit.Writes.mainReaches {cfg : Config} {u : AdvanceUnit} {r : Channel} {ws : List ChanWrite}
    (h : u.Writes cfg r ws) {s : State} {k : Ch} (hcfg : s.cfg = cfg) (hchan : s.chan k = r) :
    (s.advanceUnit k u).MainReaches { s.setChan k (r.writeAll ws) with main := afterAdvance k } := by
  induction h generalizing s with
  | done r =>
    change State.MainReaches _ { s.setChan k r with main := afterAdvance k }
    rw [← hchan, s.setChan_self]
    exact .refl _
  | last w r =>
    rw [← hchan]
    exact .refl _
  | write w p r ws _ ih =>
    have hwritten : (s.advanceUnit k (.write w p)).chan k = r.write w := by rw [State.chan_advanceUnit_write, hchan]
    have hnext := ih (s := s.advanceUnit k (.write w p)) hcfg hwritten
    refine .of_mainUnit ?_
    rw [State.mainUnit_of_writing false rfl, hwritten, State.advanceUnit_cfg, hcfg]
    change State.MainReaches _
      { (s.setChan k ((s.chan k).write w)).setChan k ((r.write w).writeAll ws) with main := _ } at hnext
    rwa [State.setChan_setChan] at hnext

/-- The units of one ADVANCE, at either granularity, make the ADVANCE. -/
theorem State.mainReaches_of_advance {s : State} {k : Ch} (h : s.main = .advance k) :
    s.MainReaches { s.advance k s.flasher with main := afterAdvance k } := by
  refine .of_mainUnit ?_
  rw [mainUnit_of_advance false h, beginAdvance]
  cases s.cfg.granularity with
  | perChannel => exact .refl _
  | perWrite =>
    rw [advance, ← Channel.writeAll_advanceWrites]
    exact (Channel.beginUnit_writes s.cfg s.flasher (s.chan k)).mainReaches rfl rfl

/-- Where the main loop stands when the channels below `n` are advanced. -/
def advanceFrom (n : Nat) : MainLoop := if h : n < 8 then .advance ⟨n, h⟩ else .serviceDone

theorem State.mainReaches_advanceFrom (s : State) {n : Nat} (hn : n ≤ 8) :
    State.MainReaches { s with main := .advance 0 }
      { s.mapChansBelow (fun _ r => r.advance s.cfg s.flasher) n with main := advanceFrom n } := by
  induction n with
  | zero =>
    rw [mapChansBelow_zero]
    exact .refl _
  | succ n ih =>
    have hstart : advanceFrom n = .advance ⟨n, hn⟩ := dif_pos hn
    have hstep := mainReaches_of_advance (k := ⟨n, hn⟩)
      (s := { s.mapChansBelow (fun _ r => r.advance s.cfg s.flasher) n with main := advanceFrom n }) hstart
    refine (ih (by omega)).trans ?_
    rw [s.mapChansBelow_succ _ ⟨n, hn⟩, ← s.chan_mapChansBelow_self (fun _ r => r.advance s.cfg s.flasher) ⟨n, hn⟩]
    exact hstep

/-- From S2 on, the units of the eight ADVANCEs. -/
theorem State.mainReaches_advanceAll (s : State) :
    State.MainReaches { s with main := .advance 0 } { s.advanceAll s.flasher with main := .serviceDone } := by
  have h := s.mainReaches_advanceFrom le_rfl
  rwa [mapChansBelow_eight] at h

theorem State.unitS1_of_wrap {s : State} (h : s.updateFlag = true) : s.unitS1 = { s with main := .serviceClear } := by
  rw [unitS1, if_pos h]

theorem State.unitS1_of_no_wrap {s : State} (h : s.updateFlag = false) :
    s.unitS1 = { s with main := .serviceDone } := by
  rw [unitS1, if_neg (by simp [h])]

theorem State.mainReaches_service {s : State} (h : s.main = .serviceRead) :
    s.MainReaches { s.service with main := .serviceDone } := by
  refine .of_mainUnit ?_
  rw [mainUnit_of_serviceRead false h]
  rcases Bool.eq_false_or_eq_true s.updateFlag with hflag | hflag
  · rw [unitS1_of_wrap hflag, service_of_wrap hflag]
    refine .of_mainUnit ?_
    rw [mainUnit_of_serviceClear false rfl]
    exact State.mainReaches_advanceAll { s with updateFlag := false }
  · rw [unitS1_of_no_wrap hflag, service_of_no_wrap hflag]
    exact .refl _

/-- Settles O51: S1 and S2, then the eight ADVANCEs in ascending order. -/
theorem serviceUnitsMakeTheService : Obligations.ServiceUnitsMakeTheService := by
  refine ⟨fun s h => ?_, fun s h poll => ?_, fun s h => ?_, fun s h poll => ?_⟩
  · obtain ⟨n, hn⟩ := State.mainReaches_service h
    exact ⟨n, s.service, rfl, (runSteps_withMainUnits false n s).trans (congrArg _ hn)⟩
  · rw [runAgent_main, State.mainUnit_of_serviceRead poll h, State.unitS1]
  · rw [runAgent_main, State.mainUnit_of_serviceDone false h]
    rfl
  · rw [runAgent_main, State.mainUnit_of_serviceClear poll h, State.unitS2]

/-! ### A lost wrap (43 R193) -/

theorem State.ticks_keep_main_and_chans (s : State) (n : Nat) :
    (State.tick^[n] s).main = s.main ∧ SameChans s (State.tick^[n] s) := by
  induction n with
  | zero => exact ⟨rfl, fun _ => rfl⟩
  | succ n ih =>
    obtain ⟨hmain, hchans⟩ := ih
    obtain ⟨htickChans, -, -, -, ⟨-, htickMain, -⟩, -⟩ := (State.tick^[n] s).tick_keeps
    rw [Function.iterate_succ_apply']
    exact ⟨htickMain.trans hmain, fun k => (htickChans k).trans (hchans k)⟩

/-- Settles O53: no tick clears the flag or moves the main loop from S2, which clears it. -/
theorem wrapBeforeClearIsLost : Obligations.WrapBeforeClearIsLost := by
  intro s n hmain hflag
  have hread : runSteps 1 (withMainUnits false 1 s) = .next { s with main := .serviceClear } := by
    rw [runSteps_withMainUnits, ← State.unitS1_of_wrap hflag, ← State.mainUnit_of_serviceRead false hmain]
    rfl
  obtain ⟨hstands, hchans⟩ := State.ticks_keep_main_and_chans { s with main := .serviceClear } n
  have hset := State.ticks_updateFlag { s with main := .serviceClear } n
  have hclear := State.mainUnit_of_serviceClear false hstands
  refine ⟨_, _, _, hread, execAll_ticks n _, ?_, (runSteps_withMainUnits false 1 _).trans (congrArg _ hclear), rfl,
    rfl, hchans⟩
  rw [hset, hflag, Bool.true_or]

/-! ### POLL -/

/-- What a POLL makes of channel `k`'s record `r` from the register map of `s` and its sense bit. -/
def State.commanded (s : State) (k : Ch) (r : Channel) : Channel :=
  (r.setTarget (decodeAspect (s.readReg (aspectOffset k)))).setOptions s.cfg.senseAnodeLevel
    (s.readReg (optionOffset k)) s.senseBit

theorem State.mainUnit_mainUnit_of_pollAspect {s : State} {k : Ch} (poll : Bool) (h : s.main = .pollAspect k) :
    (s.mainUnit poll).mainUnit poll =
      { s with main := .pollTarget k (s.readReg (aspectOffset k)) (s.readReg (optionOffset k)) } := by
  rw [mainUnit_of_pollAspect poll h, mainUnit_of_pollOption poll rfl]
  rfl

theorem State.mainUnit_mainUnit_of_pollTarget {s : State} {k : Ch} {a o : Byte} (poll : Bool)
    (h : s.main = .pollTarget k a o) :
    (s.mainUnit poll).mainUnit poll =
      { (s.setTarget k (decodeAspect a)).setOptions k o with main := afterPollChannel k } := by
  rw [mainUnit_of_pollTarget poll h, mainUnit_of_pollSetOptions poll rfl]
  rfl

theorem State.setOptions_setTarget (s : State) (k : Ch) (a : Aspect) (o : Byte) :
    (s.setTarget k a).setOptions k o =
      s.setChan k (((s.chan k).setTarget a).setOptions s.cfg.senseAnodeLevel o s.senseBit) := by
  rw [setOptions, setTarget, chan_setChan_same, setChan_setChan]
  rfl

/-- The four units of one channel: two reads and two commands. -/
theorem State.mainUnit_iterate_of_pollAspect {s : State} {k : Ch} (poll : Bool) (h : s.main = .pollAspect k) :
    (State.mainUnit · poll)^[4] s = { s.setChan k (s.commanded k (s.chan k)) with main := afterPollChannel k } := by
  change (((s.mainUnit poll).mainUnit poll).mainUnit poll).mainUnit poll = _
  rw [mainUnit_mainUnit_of_pollAspect poll h, mainUnit_mainUnit_of_pollTarget poll rfl, setOptions_setTarget]
  rfl

/-- Where the main loop stands when POLL has served the channels below `n`. -/
def pollFrom (n : Nat) : MainLoop := if h : n < 8 then .pollAspect ⟨n, h⟩ else .serviceRead

theorem State.mainUnit_iterate_pollFrom (poll : Bool) (s : State) {n : Nat} (hn : n ≤ 8) :
    (State.mainUnit · poll)^[4 * n] { s with main := .pollAspect 0 } =
      { s.mapChansBelow s.commanded n with main := pollFrom n } := by
  induction n with
  | zero =>
    rw [mapChansBelow_zero]
    rfl
  | succ n ih =>
    have hstart : pollFrom n = .pollAspect ⟨n, hn⟩ := dif_pos hn
    rw [Nat.mul_succ, Nat.add_comm, Function.iterate_add_apply, ih (by omega),
      mainUnit_iterate_of_pollAspect (k := ⟨n, hn⟩) poll hstart, s.mapChansBelow_succ _ ⟨n, hn⟩,
      ← s.chan_mapChansBelow_self s.commanded ⟨n, hn⟩]
    rfl

/-- An idle POLL's units after the test of the bus. -/
theorem State.mainUnit_iterate_takeCommands (poll : Bool) (s : State) :
    (State.mainUnit · poll)^[32] { s with main := .pollAspect 0 } = { s.takeCommands with main := .serviceRead } := by
  have h := s.mainUnit_iterate_pollFrom poll le_rfl
  rwa [mapChansBelow_eight] at h

theorem State.unitP2_of_busy {s : State} (h : s.busBusy = true) : s.unitP2 = { s with main := .serviceRead } := by
  rw [unitP2, if_pos h]

theorem State.unitP2_of_idle {s : State} (h : s.busBusy = false) : s.unitP2 = { s with main := .pollAspect 0 } := by
  rw [unitP2, if_neg (by simp [h])]

/-- A POLL's first two units: the sample and the test of the bus. -/
theorem State.mainUnit_mainUnit_of_serviceDone {s : State} (h : s.main = .serviceDone) :
    (s.mainUnit true).mainUnit true = s.unitP1.unitP2 := by
  rw [mainUnit_of_serviceDone true h, if_pos rfl, mainUnit_of_pollBusy true rfl]

theorem State.mainUnit_iterate_poll {s : State} (h : s.main = .serviceDone) :
    (State.mainUnit · true)^[if s.busBusy then 2 else 34] s = { s.poll with main := .serviceRead } := by
  rcases Bool.eq_false_or_eq_true s.busBusy with hbusy | hbusy
  · rw [if_pos hbusy, poll_of_busy hbusy]
    exact (mainUnit_mainUnit_of_serviceDone h).trans (unitP2_of_busy hbusy)
  · rw [if_neg (by simp [hbusy]), poll_of_idle hbusy, Function.iterate_add_apply _ 32 2]
    have hfirst : (State.mainUnit · true)^[2] s = { s.debounce s.senseRaw with main := .pollAspect 0 } :=
      (mainUnit_mainUnit_of_serviceDone h).trans (unitP2_of_idle hbusy)
    rw [hfirst, mainUnit_iterate_takeCommands]

/-- Settles O52: P1 and P2, then four units a channel; each unit alone by its equation. -/
theorem pollUnitsMakeThePoll : Obligations.PollUnitsMakeThePoll := by
  refine ⟨fun s h => ⟨s.poll, rfl, ?_⟩, fun s h => ⟨_, rfl, ?_⟩, fun s h poll => ?_, fun s k h poll => ?_,
    fun s k a h poll => ?_, fun s k a o h => ⟨_, rfl, fun poll => ?_⟩, fun s k o h => ⟨_, rfl, fun poll => ?_⟩⟩
  · rw [runSteps_withMainUnits, State.mainUnit_iterate_poll h]
  · rw [runAgent_main, State.mainUnit_of_serviceDone true h]
    rfl
  · rw [runAgent_main, State.mainUnit_of_pollBusy poll h, State.unitP2]
  · rw [runAgent_main, State.mainUnit_of_pollAspect poll h]
    rfl
  · rw [runAgent_main, State.mainUnit_of_pollOption poll h]
    rfl
  · rw [runAgent_main, State.mainUnit_of_pollTarget poll h]
  · rw [runAgent_main, State.mainUnit_of_pollSetOptions poll h]
    rfl

end Sys2Proof.Machine
end

section
/-! PROOFS of 43 R199 to R201: the host's moves, and what depends on the register map. The idea: an operation commutes
with the replacement of the register map (`State.withRegmap`), unless it reads or writes the map. -/

namespace Sys2Proof.Machine

/-! ### HOST_WRITE -/

theorem State.readReg_writeReg_same {s : State} (a : Fin 24) (v : Byte) (h : Memory.wf s.cfg s.regmap = true) :
    (s.writeReg a v).readReg a = v := Memory.read_write_same a.val v h

/-- Settles O54: either row's word is its encoding, and both rows are the write of one byte. -/
theorem hostWriteWritesOneByte : Obligations.HostWriteWritesOneByte := by
  intro a v s h hwf i
  have hexec : exec i s = .next (s.writeReg ⟨a.toNat, h⟩ v) := by
    rw [← State.hostWrite_of_lt v h]
    by_cases hread : a.toNat < 16
    · rw [show i = .hostWrite a v from if_pos hread]
      rfl
    · rw [show i = .hostWriteUnread a v from if_neg hread]
      rfl
  have hdecode : decode .opWord (0xA00000 + a.toNat * 0x100 + v.toNat) = .ok i := by
    by_cases hread : a.toNat < 16
    · rw [show i = .hostWrite a v from if_pos hread]
      exact decodeOfEncodeGivesInstruction (.hostWrite a v) (decide_eq_true hread)
    · rw [show i = .hostWriteUnread a v from if_neg hread]
      exact decodeOfEncodeGivesInstruction (.hostWriteUnread a v) (decide_eq_true ⟨Nat.not_lt.1 hread, h⟩)
  exact ⟨hdecode, _, hexec, State.readReg_writeReg_same _ v hwf,
    fun b hb => s.readReg_writeReg_ne v fun he => hb (congrArg Fin.val he), fun _ => rfl,
    ⟨rfl, rfl, rfl, rfl, rfl, rfl⟩, ⟨rfl, rfl, rfl⟩, ⟨rfl, rfl⟩, fun _ => rfl, ⟨rfl, rfl, rfl, rfl, rfl⟩, rfl⟩

/-! ### HOST_BUSY and HOST_SENSE -/

/-- Settles O56: the word is HOST_BUSY's encoding, and the operation replaces the level alone. -/
theorem hostBusySetsTheLevel : Obligations.HostBusySetsTheLevel := fun l s =>
  ⟨decodeOfEncodeGivesInstruction (.hostBusy l) rfl, { s with busBusy := l }, rfl, rfl, rfl, fun _ => rfl,
    ⟨rfl, rfl, rfl, rfl, rfl, rfl⟩, ⟨rfl, rfl, rfl⟩, fun _ => rfl, fun _ => rfl, ⟨rfl, rfl, rfl, rfl, rfl⟩, rfl⟩

/-- From zero counts a sample changes no debounced bit, and counts in the lanes that differ. -/
theorem State.debounce_of_zero_counts {s : State} (raw : Byte) (hA : s.clockA = 0) (hB : s.clockB = 0) :
    (s.debounce raw).debState = s.debState ∧ (s.debounce raw).clockA = raw ^^^ s.debState ∧
      (s.debounce raw).clockB = 0 := by
  obtain ⟨-, hstate, hclockA⟩ := State.debounce_bitwise raw hB
  rw [hstate, hclockA, hA]
  exact ⟨by simp, BitVec.and_allOnes, State.debounce_clockB raw hB⟩

/-- With a count in the lanes that differ, a sample flips them all. -/
theorem State.debounce_debState_of_counted {s : State} {raw : Byte} (hA : s.clockA = raw ^^^ s.debState)
    (hB : s.clockB = 0) : (s.debounce raw).debState = raw := by
  obtain ⟨-, hstate, -⟩ := State.debounce_bitwise raw hB
  rw [hstate, hA, BitVec.and_self, BitVec.xor_comm raw, ← BitVec.xor_assoc, BitVec.xor_self, BitVec.zero_xor]

theorem State.poll_senseRaw (s : State) : s.poll.senseRaw = s.senseRaw := s.poll_keepsBut .senseRaw (by simp)

/-- The second of two POLLs from zero counts debounces the raw byte. -/
theorem State.poll_poll_debState {s : State} (hA : s.clockA = 0) (hB : s.clockB = 0) :
    s.poll.debState = s.debState ∧ s.poll.poll.debState = s.senseRaw := by
  obtain ⟨hstate, hclockA, hclockB⟩ := s.debounce_of_zero_counts s.senseRaw hA hB
  obtain ⟨hfirst, hfirstA, hfirstB⟩ := s.poll_sameDebouncer
  obtain ⟨hsecond, -, -⟩ := s.poll.poll_sameDebouncer
  rw [hstate] at hfirst
  rw [hclockA, ← hfirst] at hfirstA
  refine ⟨hfirst, ?_⟩
  rw [hsecond, s.poll_senseRaw]
  exact State.debounce_debState_of_counted hfirstA (hfirstB.trans hclockB)

/-- Settles O57: the word is HOST_SENSE's encoding; the first POLL counts, and the second debounces. -/
theorem hostSenseReachesTheFilterInTwoPolls : Obligations.HostSenseReachesTheFilterInTwoPolls := fun v s =>
  ⟨decodeOfEncodeGivesInstruction (.hostSense v) rfl, { s with senseRaw := v }, rfl, rfl, rfl, fun _ => rfl,
    ⟨rfl, rfl, rfl, rfl, rfl, rfl⟩, ⟨rfl, rfl, rfl⟩, fun _ => rfl, fun _ => rfl, ⟨rfl, rfl, rfl, rfl, rfl⟩, rfl,
    fun hA hB => ⟨_, _, rfl, rfl, State.poll_poll_debState (s := { s with senseRaw := v }) hA hB⟩⟩

/-! ### Another register map (20 R51) -/

/-- The state with its register map replaced. -/
def State.withRegmap (s : State) (m : List Host.Cell) : State := { s with regmap := m }

namespace State

variable (s : State) (m : List Host.Cell)

theorem bumpMillis_withRegmap : (s.withRegmap m).bumpMillis = s.bumpMillis.withRegmap m := by
  rw [bumpMillis, bumpMillis, apply_ite (withRegmap · m)]
  rfl

theorem bumpFlasher_withRegmap : (s.withRegmap m).bumpFlasher = s.bumpFlasher.withRegmap m := by
  rw [bumpFlasher, bumpFlasher, apply_ite (withRegmap · m)]
  rfl

theorem tick_withRegmap : (s.withRegmap m).tick = s.tick.withRegmap m := by
  rw [tick, tick, ← bumpFlasher_withRegmap, ← bumpMillis_withRegmap]
  rfl

theorem service_withRegmap : (s.withRegmap m).service = s.service.withRegmap m := by
  rw [service, service, apply_ite (withRegmap · m)]
  rfl

variable {s m}

/-- An idle POLL reads bytes 0 to 15 only (D3). -/
theorem takeCommands_withRegmap (h : ∀ a : Fin 24, a.val < 16 → (s.withRegmap m).readReg a = s.readReg a) :
    (s.withRegmap m).takeCommands = s.takeCommands.withRegmap m := by
  have haspect (k : Ch) := h (aspectOffset k) (by change k.val < 16; omega)
  have hoption (k : Ch) := h (optionOffset k) (by change 8 + k.val < 16; omega)
  simp only [takeCommands, haspect, hoption]
  rfl

theorem poll_withRegmap
    (h : s.busBusy = false → ∀ a : Fin 24, a.val < 16 → (s.withRegmap m).readReg a = s.readReg a) :
    (s.withRegmap m).poll = s.poll.withRegmap m := by
  rcases Bool.eq_false_or_eq_true s.busBusy with hbusy | hbusy
  · rw [poll_of_busy hbusy, poll_of_busy (s := s.withRegmap m) hbusy]
    rfl
  · rw [poll_of_idle hbusy, poll_of_idle (s := s.withRegmap m) hbusy]
    exact takeCommands_withRegmap (s := s.debounce s.senseRaw) (h hbusy)

end State

/-- Settles O58: TICK, SERVICE and POLL commute with the replacement of the map, and every other operation is an update
of other fields from other fields. -/
theorem onlyPollReadsTheRegisterMap : Obligations.OnlyPollReadsTheRegisterMap := by
  intro i s t m hwrite hunread hpoll hexec
  cases i with
  | hostWrite a v => exact absurd rfl (hwrite a v)
  | hostWriteUnread a v => exact absurd rfl (hunread a v)
  | tick =>
    cases hexec
    exact congrArg _ (s.tick_withRegmap m)
  | service =>
    cases hexec
    exact congrArg _ (s.service_withRegmap m)
  | poll =>
    cases hexec
    exact congrArg _ (State.poll_withRegmap (hpoll rfl))
  | _ =>
    cases hexec
    rfl

end Sys2Proof.Machine
end

section
/-! PROOFS of 60_exceptions.md: R210 and R212. The idea: only HOST_WRITE can fail to answer a next state, and its row's
operand range is the register map; and an output line once driven can be lost only to a RESET, since DRIVE and TICK, the
other two writers of lines (20 R60), leave the lines they write readable. -/

namespace Sys2Proof.Machine

/-! ### Every operation and every agent's step answers a next state (60 R210) -/

theorem State.exists_hostWrite_of_lt (s : State) {a : Byte} (v : Byte) (h : a.toNat < 24) :
    ∃ t : State, s.hostWrite a v = .next t := ⟨_, State.hostWrite_of_lt v h⟩

theorem exists_exec_of_wellFormed {i : Instr} (s : State) (h : WellFormed i = true) :
    ∃ t : State, exec i s = .next t := by
  cases i with
  | hostWrite a v =>
    rw [WellFormed, decide_eq_true_eq] at h
    exact s.exists_hostWrite_of_lt v (by omega)
  | hostWriteUnread a v =>
    rw [WellFormed, decide_eq_true_eq] at h
    obtain ⟨-, hlt⟩ := h
    exact s.exists_hostWrite_of_lt v hlt
  | _ => exact ⟨_, rfl⟩

theorem exists_runAgent (a : AgentStep) (s : State) : ∃ t : State, runAgent a s = .next t := by
  cases a with
  | hostWrite r v =>
    have hr : (BitVec.ofNat 8 r.val).toNat < 24 := by
      rw [BitVec.toNat_ofNat]
      omega
    rw [runAgent_hostWrite]
    exact s.exists_hostWrite_of_lt v hr
  | _ => exact ⟨_, rfl⟩

theorem exists_agentStep (g : Agent) : ∃ a : AgentStep, agentOf a = g := by
  cases g with
  | tick => exact ⟨.tick, rfl⟩
  | mainLoop => exact ⟨.main false, rfl⟩
  | host => exact ⟨.hostBusy false, rfl⟩

theorem Agent.enabledIn (g : Agent) (s : State) : g.EnabledIn s := by
  obtain ⟨a, ha⟩ := exists_agentStep g
  obtain ⟨t, ht⟩ := exists_runAgent a s
  exact ⟨a, t, ha, ht⟩

/-- Settles O18: HOST_WRITE's rows stay within the register map, and every other row and every unit of the main loop is
a total update of the state. -/
theorem noOperationTrapsFaultsOrStops : Obligations.NoOperationTrapsFaultsOrStops :=
  ⟨fun _ s h => exists_exec_of_wellFormed s h, exists_runAgent, Agent.enabledIn⟩

/-! ### Lines are unset until driven (60 R212 (c), D26) -/

theorem readLine_of_unset {s : State} {k : Ch} {c : Color} (h : (s.out.get k).line c = none) :
    readLine s k c = .error .unsetLine := by
  rw [readLine, h]

/-- A read of a channel's line depends on the channel's three lines only. -/
theorem readLine_congr {s t : State} {k : Ch} (h : t.out.get k = s.out.get k) (c : Color) :
    readLine t k c = readLine s k c := by
  rw [readLine, readLine, h]

theorem exists_readLine_tick (s : State) (k : Ch) (c : Color) : ∃ b : Bool, readLine s.tick k c = .ok b :=
  ⟨_, readLine_of_out (s.tick_out k) c⟩

/-- DRIVE sets the lines of its own channel and leaves the others as they are. -/
theorem exists_readLine_drive {s : State} (j : Ch) (p : BitVec 5) {k : Ch} {c : Color}
    (h : ∃ b : Bool, readLine s k c = .ok b) : ∃ b : Bool, readLine (s.drive j p) k c = .ok b := by
  by_cases hk : k = j
  · subst hk
    exact ⟨_, readLine_of_out (s.drive_out_same k p) c⟩
  · rwa [readLine_congr (Bank.get_set_ne s.out _ hk)]

theorem exists_readLine_of_exec {i : Instr} {s t : State} {k : Ch} {c : Color} (hreset : i ≠ .reset)
    (hexec : exec i s = .next t) (hread : ∃ b : Bool, readLine s k c = .ok b) :
    ∃ b : Bool, readLine t k c = .ok b := by
  by_cases hwriter : .lines ∈ writtenBy i
  · obtain rfl | ⟨j, p, rfl⟩ | rfl := lines_mem_writtenBy.1 hwriter
    · exact absurd rfl hreset
    · cases hexec
      exact exists_readLine_drive j p hread
    · cases hexec
      exact exists_readLine_tick s k c
  · rwa [readLine_congr (exec_keepsBut hexec .lines hwriter k)]

/-- Settles O59: TICK drives every line, and of the writers of lines only RESET unsets one. -/
theorem linesAreUnsetUntilDriven : Obligations.LinesAreUnsetUntilDriven := by
  refine ⟨fun s k c => readLine_of_unset, ?_, fun i s t k c => exists_readLine_of_exec⟩
  intro s t htick k c
  cases htick
  exact exists_readLine_tick s k c

end Sys2Proof.Machine
end

section
/-! PROOFS of 70 R230 and R231: the state after power-up and after RESET. The idea: both give every channel the reset
record and every line no value; the other values are written out in their definitions. -/

namespace Sys2Proof.Machine

theorem readLine_of_lines_unset {s : State} {k : Ch} (h : s.out.get k = Lines.unset) (c : Color) :
    readLine s k c = .error .unsetLine :=
  readLine_of_unset (by rw [h]; cases c <;> rfl)

theorem State.out_reset (k : Ch) : State.reset.out.get k = Lines.unset := Bank.get_ofFn _ _

theorem State.out_resetBlock (s : State) (k : Ch) : s.resetBlock.out.get k = Lines.unset := Bank.get_ofFn _ _

/-- With no byte written by the host, the register map reads as `REGMAP_INIT` (D35). -/
theorem State.readReg_reset (a : Fin 24) : State.reset.readReg a = Config.platform.regmapInit[a.val] :=
  dif_pos a.isLt

/-- Settles O13: the reset record, unset lines and an unwritten register map; the rest is `State.resetWith`. -/
theorem stateAfterResetIsAsRuled : Obligations.StateAfterResetIsAsRuled :=
  ⟨State.chan_reset, fun k => readLine_of_lines_unset (State.out_reset k), rfl, rfl, rfl, rfl, rfl, rfl, rfl, rfl, rfl,
    State.readReg_reset, rfl, rfl, rfl, rfl, rfl, rfl, rfl, rfl⟩

/-- Settles O14: the reset record and unset lines; the rest is written out, or left out, in `State.resetBlock`. -/
theorem resetWritesBlockStateOnly : Obligations.ResetWritesBlockStateOnly := fun s =>
  ⟨s.resetBlock, rfl, s.chan_resetBlock, fun k => readLine_of_lines_unset (s.out_resetBlock k), rfl, rfl, rfl, rfl, rfl,
    rfl, rfl, rfl, rfl, fun _ => rfl, ⟨rfl, rfl⟩, rfl, rfl, rfl, rfl, rfl, rfl⟩

end Sys2Proof.Machine
end

section
/-! PROOFS of 70 R237: what a TICK between two byte writes of an ADVANCE can read of a duty byte. The idea: after any
number of the writes the duty byte is the one before or one that the ADVANCE writes; and an ADVANCE writes 0, the new
duty or, where it ends a transition, what the table's last entry gives. -/

namespace Sys2Proof.Machine

open Claims

/-! ### What writes leave in a duty byte -/

theorem Channel.duty_write (r : Channel) (w : ChanWrite) (c : Color) :
    (r.write w).duty c = r.duty c ∨ w = dutyWrite c ((r.write w).duty c) := by
  cases w <;> cases c <;> simp [write, duty, dutyWrite]

/-- After some writes a duty byte is the one before, or one that a write of theirs has put there. -/
theorem Channel.duty_writeAll (r : Channel) (ws : List ChanWrite) (c : Color) :
    (r.writeAll ws).duty c = r.duty c ∨ dutyWrite c ((r.writeAll ws).duty c) ∈ ws := by
  induction ws generalizing r with
  | nil => exact .inl rfl
  | cons w ws ih =>
    change ((r.write w).writeAll ws).duty c = _ ∨ dutyWrite c (((r.write w).writeAll ws).duty c) ∈ _
    rcases ih (r.write w) with hsame | hlater
    · rw [hsame, List.mem_cons]
      exact (r.duty_write w c).imp_right fun hw => .inl hw.symm
    · exact .inr (List.mem_cons_of_mem w hlater)

/-! ### The duty writes of each part of an ADVANCE (41 R148) -/

section

variable {c : Color} {v : Byte}

@[simp] theorem dutyWrite_ne_phase (p : Byte) : dutyWrite c v ≠ .phase p := by cases c <;> nofun

@[simp] theorem dutyWrite_ne_startAspect (a : Aspect) : dutyWrite c v ≠ .startAspect a := by cases c <;> nofun

@[simp] theorem dutyWrite_ne_endAspect (a : Aspect) : dutyWrite c v ≠ .endAspect a := by cases c <;> nofun

theorem dutyWrite_not_mem_skipRounds (p q : Byte) : dutyWrite c v ∉ skipRounds p q := by
  rw [skipRounds, List.mem_map]
  rintro ⟨n, -, hn⟩
  exact dutyWrite_ne_phase _ hn.symm

theorem eq_of_dutyWrite_mem_steadyWrites {a : Aspect} (h : dutyWrite c v ∈ steadyWrites a) : v = steadyDuty a c := by
  cases c <;> simpa [steadyWrites, dutyWrite] using h

theorem eq_of_dutyWrite_mem_endWrites {a : Aspect} (h : dutyWrite c v ∈ endWrites a) : v = steadyDuty a c :=
  eq_of_dutyWrite_mem_steadyWrites (by simpa [endWrites] using h)

/-- The rise of the phase writes duties only where it exhausts the table. -/
theorem eq_of_dutyWrite_mem_passWrites {len : Nat} {p : Byte} {a : Aspect} (h : dutyWrite c v ∈ passWrites len p a) :
    ¬ p.toNat + 1 < len ∧ v = steadyDuty a c := by
  unfold passWrites at h
  split at h
  · simp at h
  · next hlast => exact ⟨hlast, eq_of_dutyWrite_mem_endWrites (by simpa using h)⟩

theorem colorOf_of_dutyWrite_mem_colorWrite {a : Aspect} {x : BitVec 5} (h : dutyWrite c v ∈ colorWrite a x) :
    colorOf a = some c ∧ v = level x := by
  cases a <;> cases c <;> simp_all [colorWrite, dutyWrite, colorOf, level]

/-- Two base aspects of one colour are one aspect (00 R12). -/
theorem eq_of_colorOf_eq_some {a b : Aspect} (ha : isBase a) (hb : isBase b) (hac : colorOf a = some c)
    (hbc : colorOf b = some c) : a = b := by
  cases a <;> cases hac <;> cases b <;> simp_all [isBase, isFlashing, colorOf]

namespace Channel

variable {r : Channel} {e : Entry}

theorem dutyWrite_mem_zeroedWrites (h : dutyWrite c v ∈ zeroedWrites r e) :
    v = 0 ∨ colorOf r.startAspect = some c ∧ v = level e.down ∨ colorOf r.endAspect = some c ∧ v = level e.up := by
  rw [zeroedWrites, List.mem_append, List.mem_append] at h
  rcases h with (hzero | hdeparture) | harrival
  · left
    cases c <;> simpa [dutyWrite] using hzero
  · exact .inr (.inl (colorOf_of_dutyWrite_mem_colorWrite hdeparture))
  · exact .inr (.inr (colorOf_of_dutyWrite_mem_colorWrite harrival))

/-- The involving-red and fade walks write 0, and each colour's own value: no colour is written as departing and as
arriving (41 R134, R135). -/
theorem eq_of_dutyWrite_mem_zeroedWrites (hne : r.startAspect ≠ r.endAspect) (hs : isBase r.startAspect)
    (he : isBase r.endAspect) (h : dutyWrite c v ∈ zeroedWrites r e) : v = 0 ∨ v = crossDuty r e c := by
  rcases dutyWrite_mem_zeroedWrites h with hzero | ⟨hstart, rfl⟩ | ⟨hend, rfl⟩
  · exact .inl hzero
  · have harrival : colorOf r.endAspect ≠ some c := fun hend => hne (eq_of_colorOf_eq_some hs he hstart hend)
    rw [crossDuty, if_neg harrival, if_pos hstart]
    exact .inr rfl
  · rw [crossDuty, if_pos hend]
    exact .inr rfl

/-- The through-red walk writes each colour once (41 R133). -/
theorem eq_of_dutyWrite_mem_entryWrites_gy (hroute : r.route = .gy) (h : dutyWrite c v ∈ r.entryWrites .gy e) :
    v = entryDuty r e c := by
  rw [entryDuty, if_pos hroute]
  rcases route_gy_cases hroute with ⟨hs, he⟩ | ⟨hs, he⟩ <;> rw [entryWrites, hs, he] at h <;> rw [he] <;>
    cases c <;> simpa [colorWrite, dutyWrite, colorOf, level] using h

theorem entryWrites_of_ne_gy {w : Route} (hw : w ≠ .gy) : r.entryWrites w e = zeroedWrites r e := by
  cases w with
  | gy => exact absurd rfl hw
  | red => rfl
  | fade => rfl

/-- What a walk step writes of a duty is 0 or the entry's own value. -/
theorem eq_of_dutyWrite_mem_entryWrites (hne : r.startAspect ≠ r.endAspect) (hs : isBase r.startAspect)
    (he : isBase r.endAspect) (h : dutyWrite c v ∈ r.entryWrites r.route e) : v = 0 ∨ v = entryDuty r e c := by
  by_cases hroute : r.route = .gy
  · exact .inr (eq_of_dutyWrite_mem_entryWrites_gy hroute (hroute ▸ h))
  · rw [entryWrites_of_ne_gy hroute] at h
    rw [entryDuty_of_route_ne_gy hroute]
    exact eq_of_dutyWrite_mem_zeroedWrites hne hs he h

end Channel

end

/-! ### The duty writes of an ADVANCE -/

namespace Channel

variable {r : Channel} {c : Color} {v : Byte}

theorem duty_steadyOn (r : Channel) (a : Aspect) (c : Color) : (steadyOn r a).duty c = steadyDuty a c := by
  cases c <;> rfl

/-- A duty byte that a step on table `t` writes is 0, the one after the step or, where the step ends the transition on
the last entry, what that gives. -/
theorem dutyWrite_mem_tableStepWrites {t : Table} (hne : r.startAspect ≠ r.endAspect) (hs : isBase r.startAspect)
    (he : isBase r.endAspect) (h : dutyWrite c v ∈ r.tableStepWrites r.route t) :
    v = 0 ∨ v = (r.afterEntry t).duty c ∨
      r.afterEntry t = steadyOn r r.endAspect ∧
        ∃ e, tableGet t (tableLen t - 1) = some e ∧ v = entryDuty r e c := by
  have hends (hw : dutyWrite c v ∈ endWrites r.endAspect) : v = (steadyOn r r.endAspect).duty c :=
    (eq_of_dutyWrite_mem_endWrites hw).trans (r.duty_steadyOn _ c).symm
  unfold tableStepWrites at h
  unfold afterEntry
  split at h
  · exact .inr (.inl (hends h))
  · next e hentry =>
    split at h
    · next hearly =>
      rw [if_pos hearly]
      exact .inr (.inl (hends h))
    · next hgo =>
      rw [if_neg hgo]
      rcases List.mem_append.1 h with hduty | hpass
      · refine (eq_of_dutyWrite_mem_entryWrites hne hs he hduty).imp_right fun hv => ?_
        split
        · exact .inl (hv.trans (r.withEntry_duty e c).symm)
        · next hlast =>
          have hlen : tableLen t - 1 = r.phase.toNat := by
            have := tableGet_lt hentry
            omega
          exact .inr ⟨rfl, e, hlen ▸ hentry, hv⟩
      · obtain ⟨hlast, hv⟩ := eq_of_dutyWrite_mem_passWrites hpass
        rw [if_neg hlast, duty_steadyOn]
        exact .inr (.inl hv)

/-- The table of `r`'s transition has a last entry, and it gives colour `c` the duty `v`. -/
def LastEntryGives (cfg : Config) (r : Channel) (c : Color) (v : Byte) : Prop :=
  ∃ e : Entry, tableGet (activeTable cfg r) (tableLen (activeTable cfg r) - 1) = some e ∧ v = entryDuty r e c

/-- A duty byte that an ADVANCE in a transition writes is 0, the new one or, where it ends the transition, the last
entry's. -/
theorem dutyWrite_mem_advanceWrites_of_transition {cfg : Config} {f : Bool} (hne : r.startAspect ≠ r.endAspect)
    (hs : isBase r.startAspect) (he : isBase r.endAspect) (h : dutyWrite c v ∈ r.advanceWrites cfg f) :
    v = 0 ∨ v = (r.advance cfg f).duty c ∨
      (r.advance cfg f).startAspect = (r.advance cfg f).endAspect ∧ r.LastEntryGives cfg c v := by
  rw [advanceWrites_of_transition f hne, List.mem_append] at h
  have hstep := h.resolve_left (dutyWrite_not_mem_skipRounds _ _)
  rw [advance_eq_afterEntry f hne]
  refine (dutyWrite_mem_tableStepWrites (r := { r with phase := r.entryPhase cfg }) hne hs he hstep).imp_right
    (Or.imp_right (And.imp_left fun hsteady => ?_))
  rw [hsteady]
  rfl

/-- A duty byte that an ADVANCE writes is 0, the new one or, where it ends a transition, the last entry's. -/
theorem dutyWrite_mem_advanceWrites {cfg : Config} {f : Bool} (hs : isBase r.startAspect) (he : isBase r.endAspect)
    (h : dutyWrite c v ∈ r.advanceWrites cfg f) :
    v = 0 ∨ v = (r.advance cfg f).duty c ∨
      (r.advance cfg f).startAspect = (r.advance cfg f).endAspect ∧
        (r.begin (effective r.nextAspect f)).startAspect ≠ (r.begin (effective r.nextAspect f)).endAspect ∧
        (r.begin (effective r.nextAspect f)).LastEntryGives cfg c v := by
  by_cases hsteady : r.startAspect = r.endAspect
  · by_cases ht : effective r.nextAspect f = r.endAspect
    · rw [advanceWrites_of_steady hsteady ht] at h
      rw [advance_of_steady f hsteady ht, duty_settle hsteady]
      exact .inr (.inl (eq_of_dutyWrite_mem_steadyWrites h))
    · have hbegin : r.begin (effective r.nextAspect f) = begunTo r (effective r.nextAspect f) := if_pos ⟨hsteady, ht⟩
      have hne := begunTo_in_transition hsteady ht
      have hbegun : dutyWrite c v ∈ (begunTo r (effective r.nextAspect f)).advanceWrites cfg f := by
        simpa [advanceWrites_of_begin hsteady ht] using h
      rw [hbegin, advance_of_begin f hsteady ht]
      exact (dutyWrite_mem_advanceWrites_of_transition hne hs (effective_isBase _ _) hbegun).imp_right
        (Or.imp_right (And.imp_right fun hlast => ⟨hne, hlast⟩))
  · rw [begin_of_transition _ hsteady]
    exact (dutyWrite_mem_advanceWrites_of_transition hsteady hs he h).imp_right
      (Or.imp_right (And.imp_right fun hlast => ⟨hsteady, hlast⟩))

/-- An ADVANCE that ends at steady state leaves the steady duties. -/
theorem duty_advance_of_ends {cfg : Config} {f : Bool}
    (h : (r.advance cfg f).startAspect = (r.advance cfg f).endAspect) (c : Color) :
    (r.advance cfg f).duty c = steadyDuty (r.advance cfg f).endAspect c := by
  let walked := (r.begin (effective r.nextAspect f)).walk cfg
  obtain ⟨-, hstart, hend⟩ := walked.settle_sameProgress
  change walked.settle.startAspect = walked.settle.endAspect at h
  change walked.settle.duty c = steadyDuty walked.settle.endAspect c
  rw [hstart, hend] at h
  rw [duty_settle h, hend]

end Channel

/-- Settles O37: after some of the writes a duty byte is the old one or one written; and of the written ones the last
entry's is no new one only where the ADVANCE ends at steady state, whose duties are then the new ones. -/
theorem interruptedAdvanceShowsOldZeroOrNew : Obligations.InterruptedAdvanceShowsOldZeroOrNew := by
  intro s k f n c hs he
  refine ⟨_, exec_advance s k f, ?_⟩
  rw [State.chan_advance_same]
  intro seen begun table
  have hseen : seen.duty c = (s.chan k).duty c ∨ dutyWrite c (seen.duty c) ∈ (s.chan k).advanceWrites s.cfg f :=
    ((s.chan k).duty_writeAll _ c).imp_right List.mem_of_mem_take
  rcases hseen with hold | hwritten
  · exact ⟨fun _ => .inl hold, fun _ => .inl hold⟩
  · rcases Channel.dutyWrite_mem_advanceWrites hs he hwritten with hzero | hnew | ⟨hends, hlast⟩
    · exact ⟨fun _ => .inr (.inl hzero), fun _ => .inr (.inl hzero)⟩
    · exact ⟨fun _ => .inr (.inr hnew), fun hends =>
        .inr (.inr (.inl (hnew.trans (Channel.duty_advance_of_ends hends c))))⟩
    · exact ⟨fun hgoes => absurd hends hgoes, fun _ => .inr (.inr (.inr hlast))⟩

end Sys2Proof.Machine
end
